-- ==== Sys2Proof/Word.lean ====
section
/-! DEFINITION. The words of the station: bytes, revisions, sequences (00_scope.md, "Identifiers and counters"). -/

namespace Sys2Proof

/-- One byte of a frame, of the configuration image or of the host window. -/
abbrev Byte := BitVec 8

/-- A contract's revision, 0 to 255 and wrapping (R4). -/
abbrev Revision := BitVec 8

/-- A link sequence, 0 to 15 and wrapping (R137). -/
abbrev Sequence := BitVec 4

end Sys2Proof
end

