-- ==== Sys2Proof/Syntax.lean ====
section
/-! DEFINITION. The commands of the block: one constructor for each row of spec/opcode_table.json. The table gives its
rows no operand fields; the operands here are what the row's rule reads (DESIGN CHOICE, log entry 21). Every command
carries `dt`, the bit times of 8 µs that pass before it is taken (DESIGN CHOICE, log entry 1). -/

namespace Sys2Proof

/-- What the line does after the last byte collected (R125, R134, R172): it falls idle within one bit time, it shows the
contention level, or activity goes on. -/
inductive LineEnd
  | idle
  | contention
  | overrun
deriving DecidableEq, Repr

/-- Everything the receiver collects from the first symbol of activity until the line is idle again (8.5): the whole
bytes collected, how many bit times of activity followed the last of them without making another byte, and how the
collection ended. -/
structure Reception where
  bytes : List Byte
  bits : Nat
  lineEnd : LineEnd
deriving DecidableEq, Repr

/-- The bit times of activity in a reception. -/
def Reception.time (r : Reception) : Nat := 8 * r.bytes.length + r.bits

/-- A reset taken from the Request Queue samples the straps (R157): the bit times that pass before it, and the levels of
ADDR1 and ADDR0 then. -/
structure Sampling where
  dt : Nat
  straps : BitVec 2
deriving DecidableEq, Repr

/-- The commands. -/
inductive Instr
  /-- POWER_ON_RESET, R145; `straps` are the levels of ADDR1 and ADDR0 (R157). -/
  | powerOnReset (dt : Nat) (straps : BitVec 2)
  /-- PIN_RESET, R145. -/
  | pinReset (dt : Nat)
  /-- RESET_RELEASE, R145; the straps are sampled (R157). -/
  | resetRelease (dt : Nat) (straps : BitVec 2)
  /-- LOAD_COMPLETE, R146; the image read, or none where the device did not acknowledge; the SUPPLY_PRESENT level. -/
  | loadComplete (dt : Nat) (image : Option (List Byte)) (supply : Bool)
  /-- MEMORY_TIMEOUT, R146; the SUPPLY_PRESENT level at the end of LOADING. -/
  | memoryTimeout (dt : Nat) (supply : Bool)
  /-- LISTEN_TIMER_END, R151; the incarnation drawn and the RAIL_SENSE reading at the entry. -/
  | listenTimerEnd (dt : Nat) (incarnation : Byte) (rail : Nat)
  /-- COMMIT, R159; the byte written to the commit location. -/
  | commit (dt : Nat) (value : Byte)
  /-- POP, R161; the byte written to the pop location. -/
  | pop (dt : Nat) (value : Byte)
  /-- EVENT_FLAG_CLEAR, R168; the two bytes written to the event flags. -/
  | eventFlagClear (dt : Nat) (value : BitVec 16)
  /-- EVENT_MASK_WRITE, R169; the two bytes written to the event mask. -/
  | eventMaskWrite (dt : Nat) (value : BitVec 16)
  /-- HOST_WRITE, R176; the bytes of one write transaction (the location pointer first, R175) and how many bytes are
  then read from the pointer. -/
  | hostWrite (dt : Nat) (bytes : List Byte) (reads : Nat)
  /-- SET_DEMAND taken, R162. -/
  | setDemand (dt : Nat)
  /-- SET_CAPACITY taken, R162. -/
  | setCapacity (dt : Nat)
  /-- SET_ROLE taken, R83. -/
  | setRole (dt : Nat)
  /-- LEAVE taken, R152. -/
  | leave (dt : Nat)
  /-- REJOIN taken, R154. -/
  | rejoin (dt : Nat)
  /-- RECLOSE taken, R117. -/
  | reclose (dt : Nat)
  /-- CLEAR_UNPOWERED taken, R163. -/
  | clearUnpowered (dt : Nat)
  /-- READ_PEERS taken, R164. -/
  | readPeers (dt : Nat)
  /-- READ_CONTRACTS taken, R164. -/
  | readContracts (dt : Nat)
  /-- RESTART taken, R165; the straps are sampled (R157). -/
  | restart (sample : Sampling)
  /-- A request of no request kind taken, R160. -/
  | unknownRequest (dt : Nat)
  /-- RECEIVE_DECLARE, R22. -/
  | receiveDeclare (dt : Nat) (r : Reception)
  /-- RECEIVE_ALERT, R120. -/
  | receiveAlert (dt : Nat) (r : Reception)
  /-- RECEIVE_ACK, R130. -/
  | receiveAck (dt : Nat) (r : Reception)
  /-- RECEIVE_DIRECTED_FRAME, R136. -/
  | receiveDirectedFrame (dt : Nat) (r : Reception)
  /-- MALFORMED_RECEPTION, R134. -/
  | malformedReception (dt : Nat) (r : Reception)
  /-- FRAGMENT, R134. -/
  | fragment (dt : Nat) (r : Reception)
  /-- ACK_TRANSMIT, R136. -/
  | ackTransmit (dt : Nat)
  /-- COLLISION, R125. -/
  | collision (dt : Nat)
  /-- QUIET_GAP_END, R128; the value k drawn for this idle interval (R127). -/
  | quietGapEnd (dt : Nat) (k : Nat)
  /-- RETRY_GAP_END, R131; the value k drawn for this idle interval (R127). -/
  | retryGapEnd (dt : Nat) (k : Nat)
  /-- BROADCAST_TRANSMISSION_END, R129. -/
  | broadcastTransmissionEnd (dt : Nat)
  /-- ACK_WINDOW_CLOSE, R130. -/
  | ackWindowClose (dt : Nat)
  /-- CONSUME_ASK, R64. -/
  | consumeAsk (dt : Nat)
  /-- CONSUME_GRANT, R53. -/
  | consumeGrant (dt : Nat)
  /-- CONSUME_HOLD, R48. -/
  | consumeHold (dt : Nat)
  /-- CONSUME_DECLINE, R50. -/
  | consumeDecline (dt : Nat)
  /-- CONSUME_TRIM, R78. -/
  | consumeTrim (dt : Nat)
  /-- CONSUME_RECALL, R56. -/
  | consumeRecall (dt : Nat)
  /-- CONSUME_YIELD, R74. -/
  | consumeYield (dt : Nat)
  /-- CONSUME_RELEASE, R58. -/
  | consumeRelease (dt : Nat)
  /-- CONSUME_DECLARE, R95. -/
  | consumeDeclare (dt : Nat)
  /-- CONSUME_ALERT, R121. -/
  | consumeAlert (dt : Nat)
  /-- PEER_SILENT, R27; the peer's address. -/
  | peerSilent (dt : Nat) (addr : Nat)
  /-- PEER_LOST_THRESHOLD, R27; the peer's address. -/
  | peerLostThreshold (dt : Nat) (addr : Nat)
  /-- ASK_TIMEOUT, R47; the supplier asked. -/
  | askTimeout (dt : Nat) (supplier : Nat)
  /-- HOLD_END, R49; the supplier asked. -/
  | holdEnd (dt : Nat) (supplier : Nat)
  /-- RECALL_DEADLINE, R76; the contract id of the supplier-side record. -/
  | recallDeadline (dt : Nat) (id : Nat)
  /-- DECLARE_PERIOD_DUE, R31. -/
  | declarePeriodDue (dt : Nat)
  /-- DECLARE_SPACING_END, R32. -/
  | declareSpacingEnd (dt : Nat)
  /-- RAMP_END, R110. -/
  | rampEnd (dt : Nat)
  /-- PATH_CURRENT_CHANGE, R113; the current read on PATH_SENSE, in CU. -/
  | pathCurrentChange (dt : Nat) (current : Nat)
  /-- TRIP, R116. -/
  | trip (dt : Nat)
  /-- SHED_WINDOW_CLOSE, R114. -/
  | shedWindowClose (dt : Nat)
  /-- RAIL_LOW, R119; the voltage read on RAIL_SENSE, in units of 10 mV. -/
  | railLow (dt : Nat) (rail : Nat)
  /-- RAIL_RESTORED, R119; the voltage read on RAIL_SENSE. -/
  | railRestored (dt : Nat) (rail : Nat)
  /-- BROWNOUT, R120; the voltage read on RAIL_SENSE at the brownout. -/
  | brownout (dt : Nat) (rail : Nat)
  /-- ALERT_SUSPENSION_END, R123. -/
  | alertSuspensionEnd (dt : Nat)
  /-- SUPPLY_LOSS, R62. -/
  | supplyLoss (dt : Nat)
  /-- SUPPLY_RETURN, R62. -/
  | supplyReturn (dt : Nat)
deriving DecidableEq, Repr

end Sys2Proof
end

