-- ==== Sys2Proof/Config.lean ====
section
/-! DEFINITION. The free values: what the spec leaves without a value. They have no body, so nothing can be
proved of the value they give; each use takes a new draw number. -/

namespace Sys2Proof

/-- What a read of a write-only location of the host window returns at the given draw (R176 gives the commit and pop
locations no read value). DESIGN CHOICE: a free value, log entry 14. -/
opaque Config.writeOnlyByte : Nat → Byte

/-- The location pointer after a write transaction of one byte, at the given draw (R175 gives the pointer two bytes).
DESIGN CHOICE: a free value, log entry 13. -/
opaque Config.shortPointer : Nat → BitVec 16

end Sys2Proof
end

