-- ==== Sys2Proof/Machine/State.lean ====
section
/-! DEFINITION. The state of the station, block by block (00_scope.md, "Blocks"), and its value right after power-on
reset. Times are points on the clock `now`, counted in bit times of 8 µs. -/

namespace Sys2Proof.Machine

/-! ### Outcomes -/

/-- The spec describes no fault that stops the station: every condition it names leads to a next state (log entry 3). So
no meaning raises a fault and the type has no constructor. -/
inductive Fault
deriving DecidableEq, Repr

/-- Reasons to refuse a command. -/
inductive Refusal
  /-- Raised by an arm of exec whose command has no meaning yet, and by no arm of this model; safe: the machine stops. -/
  | notModelled (mnemonic : String)
deriving DecidableEq, Repr

/-! ### Station Control -/

/-- The seven station states (R144). -/
inductive Station
  | loading | listening | joined | leaving | offline | configFault | duplicate
deriving DecidableEq, Repr

/-- The fault codes of a failed load (R146, R149); BAD_FIELD carries the field's index. -/
inductive FaultCode
  | none | noMemory | badMarker | badVersion | badCrc | badField (index : Nat)
deriving DecidableEq, Repr

/-- The cause of the last reset (R145). -/
inductive ResetCause
  | powerOn | pin | command
deriving DecidableEq, Repr

/-- A role that can be asked for: a start role (R147), a SET_ROLE target (R83), a drain target (R81). -/
inductive Target
  | idle | taker | supplier
deriving DecidableEq, Repr

/-- The configuration adopted from a good image (R147), each field in the unit the image gives. -/
structure StationConfig where
  address : Nat
  startRole : Target
  capacity : Nat
  demand : Nat
  minGrant : Nat
  period : Nat
  askTimeout : Nat
  holdTime : Nat
  recallTimeout : Nat
  overdrawGrace : Nat
  shedGrace : Nat
  overdrawMargin : Nat
  rampTime : Nat
  startAllowance : Nat
  sheddable : Bool
  alertThreshold : Nat
  alertHoldoff : Nat
deriving DecidableEq, Repr

/-- Station Control (chapter 9). -/
structure Control where
  /-- The station state (R144). -/
  station : Station
  /-- The configuration, absent until a good load (R148). -/
  config : Option StationConfig
  /-- The unpowered flag (R148). -/
  unpowered : Bool
  /-- The fault code, with the field index of BAD_FIELD (R149). -/
  fault : FaultCode
  /-- The reset cause (R145). -/
  resetCause : ResetCause
  /-- The RESET input is asserted (R145). -/
  resetHeld : Bool
  /-- The end of the listen window while the listen timer runs (R150). -/
  listenEnd : Option Nat
  /-- When the configuration memory read in progress began (R146). -/
  loadStart : Option Nat
  /-- The incarnation drawn on the last entry to JOINED (R151). -/
  incarnation : Byte
deriving DecidableEq, Repr

/-! ### Contract Table and Negotiation Engine -/

/-- Which party of a contract the station is (R5). -/
inductive Side
  | supply | take
deriving DecidableEq, Repr

/-- The states of a record with the fields present in each (R5, R6, R7). -/
inductive RecordState
  | provisional
  | active
  | raising (priorAmount : Nat) (priorRevision : Revision)
  | recalling (target : Nat) (targetRevision : Revision) (deadline : Nat)
  | closing
deriving DecidableEq, Repr

/-- The notices a record can owe (1.6). -/
inductive Notice
  | trim | recall | yield | release
deriving DecidableEq, Repr

/-- A contract record (R5). -/
structure Record where
  supplier : Nat
  id : Nat
  side : Side
  counterpart : Nat
  amount : Nat
  revision : Revision
  state : RecordState
  owed : Option Notice
  miss : Nat
deriving DecidableEq, Repr

/-- The states of a pending ask (R40). QUEUED refers to its ASK frame; ASKED and HELD carry their deadline; `waiting` is
HELD after the hold has ended, waiting for a place in the normal queue since the time given (R49). -/
inductive AskState
  | queued (frame : Nat)
  | asked (deadline : Nat)
  | held (deadline : Nat)
  | waiting (since : Nat)
deriving DecidableEq, Repr

/-- A pending ask (R40). -/
structure Ask where
  supplier : Nat
  requestId : Nat
  raised : Option Nat
  amount : Nat
  minimum : Nat
  state : AskState
  holds : Nat
deriving DecidableEq, Repr

/-- What a drain serves (R81): the SET_ROLE request with the tag given, or leaving. -/
inductive Purpose
  | setRole (tag : Byte)
  | leaving
deriving DecidableEq, Repr

/-- The station's role; the drain target and purpose are present only in the draining roles (R81). -/
inductive Role
  | idle
  | taker
  | supplier
  | drainingTake (target : Target) (purpose : Purpose)
  | drainingSupply (target : Target) (purpose : Purpose)
deriving DecidableEq, Repr

/-- The five role values, as declared and reported (R81, R29). -/
inductive RoleValue
  | idle | taker | supplier | drainingTake | drainingSupply
deriving DecidableEq, Repr

/-- The Negotiation Engine with the Contract Table and the declaration builder (chapters 1 to 6). -/
structure Engine where
  /-- The Contract Table, in order of establishment (R9). -/
  table : List Record
  /-- The Pending Ask Table (R40), oldest ask first. -/
  asks : List Ask
  /-- The role, with any drain in progress (R81). -/
  role : Role
  /-- Demand (R38). -/
  demand : Nat
  /-- Capacity (R61). -/
  capacity : Nat
  /-- SUPPLY_PRESENT as last read (R62, R158). -/
  supply : Bool
  /-- The next-contract-id counter (R11). -/
  nextContract : Nat
  /-- The request-id counter (R41). -/
  nextRequest : Nat
  /-- The alert suspension's end time (R123). -/
  suspendEnd : Option Nat
  /-- A DECLARE is due and has no place yet (R33). -/
  declareDue : Bool
  /-- The final DECLARE of leaving has become due (R34). -/
  finalDue : Bool
  /-- A change is pending (R32). -/
  changePending : Bool
  /-- The last declaration instant (R31). -/
  lastInstant : Option Nat
  /-- The model's own number for the next ASK frame, which a QUEUED ask refers to (R40); log entry 23. -/
  nextRef : Nat
deriving DecidableEq, Repr

/-! ### Peer Table -/

/-- The liveness of an entry (R27). -/
inductive Liveness
  | active | silent
deriving DecidableEq, Repr

/-- A Peer Table entry (R18). The declared period is in units of 10 ms. -/
structure Peer where
  addr : Nat
  incarnation : Byte
  role : RoleValue
  unpowered : Bool
  sheddable : Bool
  period : Nat
  capacity : Nat
  spare : Nat
  unmet : Nat
  liveness : Liveness
  lastHeard : Nat
  nextOut : Sequence
  lastIn : Option Sequence
  skip : Bool
deriving DecidableEq, Repr

/-! ### Frames -/

/-- One contract's entry in a DECLARE (R30). -/
structure Summary where
  counterpart : Nat
  id : Nat
  amount : Nat
  revision : Revision
deriving DecidableEq, Repr

/-- The content of a DECLARE (R29, 11.1); the role stands as its code, which may be out of range in a received frame
(R173). -/
structure Declare where
  role : Nat
  unpowered : Bool
  sheddable : Bool
  leaving : Bool
  incarnation : Byte
  period : Nat
  capacity : Nat
  spare : Nat
  unmet : Nat
  summaries : List Summary
deriving DecidableEq, Repr

/-- The payloads of the eleven frame kinds (11.1). An ASK without a raised contract carries id 0. -/
inductive Payload
  | declare (d : Declare)
  | ask (requestId amount minimum id : Nat)
  | grant (requestId id amount : Nat) (revision : Revision)
  | hold (requestId time : Nat)
  | decline (requestId reason : Nat)
  | trim (id amount : Nat) (revision : Revision)
  | recall (id target : Nat) (revision : Revision)
  | yield (id amount : Nat) (revision : Revision)
  | release (supplier id : Nat)
  | alert (rail : Nat)
  | ack
deriving DecidableEq, Repr

/-- A frame (11.1); destination 0 is broadcast. -/
structure Frame where
  dst : Nat
  src : Nat
  seq : Sequence
  body : Payload
deriving DecidableEq, Repr

/-- What an outbound frame carries: a DECLARE, composed at each attempt and final or not (R29, R34), or a payload fixed
when the frame was queued. -/
inductive OutBody
  | declare (final : Bool)
  | fixed (p : Payload)
deriving DecidableEq, Repr

/-- A frame queued for transmission; `ref` is the number a pending ask refers to it by, 0 where none does. -/
structure OutFrame where
  dst : Nat
  body : OutBody
  ref : Nat
deriving DecidableEq, Repr

/-! ### Sideband Link -/

/-- Where a current frame stands: its attempt began at `start` and has no outcome yet, or it is in backoff (R131). -/
inductive Phase
  | attempting (start : Nat)
  | backoff
deriving DecidableEq, Repr

/-- The current or pre-empted frame (R128, R133) with its sequence, attempt count, failed attempts, phase and the content
of its latest attempt. -/
structure Current where
  frame : OutFrame
  seq : Sequence
  attempts : Nat
  failures : Nat
  phase : Phase
  content : Payload
deriving DecidableEq, Repr

/-- An ACK decided or being driven (R136): destination, acked sequence, the time at which it begins. -/
structure AckOut where
  dst : Nat
  seq : Sequence
  start : Nat
deriving DecidableEq, Repr

/-- The six link counters (R143). -/
structure Counters where
  framesSent : Nat
  collisions : Nat
  giveUps : Nat
  crcErrors : Nat
  inboundDrops : Nat
  alertsDropped : Nat
deriving DecidableEq, Repr

/-- The Sideband Link (chapter 8). -/
structure Link where
  /-- The urgent outbound queue, head first (R140). -/
  urgent : List OutFrame
  /-- The normal outbound queue, head first (R140). -/
  normal : List OutFrame
  /-- The current frame (R128). -/
  current : Option Current
  /-- The pre-empted frame (R133). -/
  preempted : Option Current
  /-- The inbound queue, head first (R141). -/
  inbound : List Frame
  /-- The ACK decided and not yet begun (R136). -/
  ackDue : Option AckOut
  /-- The ACK being driven (R136). -/
  ackOut : Option AckOut
  /-- Since when the line has been idle; none while the station drives it or the receiver is off (R126, R127). -/
  idleSince : Option Nat
  /-- The link counters (R143). -/
  counters : Counters
deriving DecidableEq, Repr

/-! ### Path Controller -/

/-- The path states (R109): OPEN, RAMPING, CLOSED, TRIPPED. -/
inductive PathState
  | opened | ramping | closed | tripped
deriving DecidableEq, Repr

/-- The Path Controller (chapter 7). -/
structure PathCtl where
  /-- The path state (R109). -/
  state : PathState
  /-- The limit (R111). -/
  limit : Nat
  /-- The end of the ramp time in RAMPING (R110). -/
  rampEnd : Option Nat
  /-- When the running overdraw timer started (R113). -/
  overdraw : Option Nat
  /-- The end of the open shed window (R114). -/
  shedEnd : Option Nat
  /-- When the running rail-low timer started (R119). -/
  railTimer : Option Nat
  /-- The brownout detector is armed (R119). -/
  armed : Bool
  /-- The last-alert time (R120). -/
  lastAlert : Option Nat
  /-- The current last read on PATH_SENSE, in CU (R113). -/
  pathSense : Nat
  /-- The voltage last read on RAIL_SENSE, in units of 10 mV (R119). -/
  railSense : Nat
  /-- The PATH_EN output (R109). -/
  pathEn : Bool
  /-- The LIMIT_OUT output, in CU (R109). -/
  limitOut : Nat
deriving DecidableEq, Repr

/-! ### Host Port -/

/-- A request as staged or queued (R159). -/
structure Request where
  kind : Byte
  tag : Byte
  arg0 : Byte
  arg1 : Byte
  arg2 : Byte
  arg3 : Byte
deriving DecidableEq, Repr

/-- The result codes (R161). -/
inductive ResultCode
  | done | refusedState | refusedArg | aborted
deriving DecidableEq, Repr

/-- A result (R161): tag, kind as staged, code and data. -/
structure Result where
  tag : Byte
  kind : Byte
  code : ResultCode
  data : List Byte
deriving DecidableEq, Repr

/-- The kinds of long request (R166). -/
inductive LongKind
  | setRole | leave | rejoin
deriving DecidableEq, Repr

/-- The long request in progress (R166). -/
structure LongRequest where
  kind : LongKind
  tag : Byte
deriving DecidableEq, Repr

/-- The Host Port (chapter 10). -/
structure HostPort where
  /-- The Request Queue, head first (R159). -/
  requests : List Request
  /-- The Result Queue, oldest first (R161). -/
  results : List Result
  /-- Places reserved in the Result Queue (R160). -/
  reserved : Nat
  /-- The long request in progress (R166). -/
  long : Option LongRequest
  /-- The staging region (R159). -/
  staged : Request
  /-- The event flags, one bit per event (R168, R176). -/
  flags : BitVec 16
  /-- The event mask (R169, R176). -/
  mask : BitVec 16
  /-- The INT output, true while asserted (R169). -/
  int : Bool
  /-- The location pointer (R175). -/
  pointer : BitVec 16
  /-- The 7-bit I2C address selected at the last reset release (R157). -/
  address : BitVec 7
  /-- The levels of ADDR1 and ADDR0 (R157). -/
  straps : BitVec 2
  /-- The model's own record: the bytes the last read returned (R175); log entry 12. -/
  out : List Byte
  /-- The model's own counter of free values drawn; log entries 13 and 14. -/
  draws : Nat
deriving DecidableEq, Repr

/-! ### The station -/

/-- The state of the station. -/
structure State where
  control : Control
  engine : Engine
  peers : List Peer
  link : Link
  path : PathCtl
  host : HostPort
  /-- The clock, in bit times (log entry 1). -/
  now : Nat
  /-- The commands that wait, first in first out. -/
  pending : List Instr
deriving DecidableEq, Repr

/-- Station Control after a reset of the cause given (R145), the memory read begun at `now`. -/
def Control.initial (cause : ResetCause) (now : Nat) : Control where
  station := .loading
  config := none
  unpowered := false
  fault := .none
  resetCause := cause
  resetHeld := false
  listenEnd := none
  loadStart := some now
  incarnation := 0

/-- The engine after a reset (R17, R36, R60, R80, R81, R123). -/
def Engine.initial : Engine where
  table := []
  asks := []
  role := .idle
  demand := 0
  capacity := 0
  supply := false
  nextContract := 1
  nextRequest := 1
  suspendEnd := none
  declareDue := false
  finalDue := false
  changePending := false
  lastInstant := none
  nextRef := 1

/-- The link after a reset (R142, R143). -/
def Link.initial : Link where
  urgent := []
  normal := []
  current := none
  preempted := none
  inbound := []
  ackDue := none
  ackOut := none
  idleSince := none
  counters := ⟨0, 0, 0, 0, 0, 0⟩

/-- The Path Controller after a reset (R109, R119), with the readings on the sense lines as they stand. -/
def PathCtl.initial (pathSense railSense : Nat) : PathCtl where
  state := .opened
  limit := 0
  rampEnd := none
  overdraw := none
  shedEnd := none
  railTimer := none
  armed := true
  lastAlert := none
  pathSense := pathSense
  railSense := railSense
  pathEn := false
  limitOut := 0

/-- The Host Port after a reset (R159, R170, R176), at the address the straps select (R157): 0x4C to 0x4F. -/
def HostPort.initial (straps : BitVec 2) : HostPort where
  requests := []
  results := []
  reserved := 0
  long := none
  staged := ⟨0, 0, 0, 0, 0, 0⟩
  flags := 0
  mask := 0
  int := false
  pointer := 0
  address := 0x4C#7 + straps.setWidth 7
  straps := straps
  out := []
  draws := 0

/-- The station right after power-on reset: LOADING has begun (R145) at time 0 and no command waits. The levels on the
pins RESET, ADDR0, ADDR1, PATH_SENSE and RAIL_SENSE are DESIGN CHOICE (log entry 16). -/
def State.reset : State where
  control := Control.initial .powerOn 0
  engine := Engine.initial
  peers := []
  link := Link.initial
  path := PathCtl.initial 0 0
  host := HostPort.initial 0
  now := 0
  pending := []

end Sys2Proof.Machine
end

