-- ==== Sys2Proof/Machine/Params.lean ====
section
/-! DEFINITION. The fixed numbers of the station, each with the rule that gives it. -/

namespace Sys2Proof.Machine

/-- Bit times in n milliseconds: a bit time is 8 µs (00_scope.md, "Time"). -/
def ms (n : Nat) : Nat := 125 * n

/-- Places of the Contract Table (R9). -/
def contractPlaces : Nat := 16
/-- Places of the Pending Ask Table (R40). -/
def askPlaces : Nat := 4
/-- Places of the urgent queue (R140). -/
def urgentPlaces : Nat := 4
/-- Places of the normal queue (R140). -/
def normalPlaces : Nat := 12
/-- Places of the inbound queue (R141). -/
def inboundPlaces : Nat := 8
/-- Places of the Request Queue (R159). -/
def requestPlaces : Nat := 4
/-- Places of the Result Queue (R161). -/
def resultPlaces : Nat := 4
/-- The largest contract amount (R3). -/
def maxAmount : Nat := 400
/-- The largest capacity, demand and LIMIT_OUT value (R38, R61, R109). -/
def fullScale : Nat := 2000
/-- Attempts given to a frame (R131). -/
def maxAttempts : Nat := 8
/-- HOLDs accepted for one ask (R48). -/
def maxHolds : Nat := 3
/-- The spacing of DECLAREs due by change, in bit times (R31). -/
def declareSpacing : Nat := ms 50
/-- The rail-low time of a brownout, in bit times (R119). -/
def railLowTime : Nat := ms 2
/-- The limit of a memory read, in bit times (R146). -/
def memoryReadTime : Nat := ms 100
/-- The shortest listen window, in ms (R150). -/
def minListen : Nat := 400
/-- Bit times from the end of a frame to its ACK (R136). -/
def ackDelay : Nat := 6
/-- Bit times of the acknowledgement window (R130). -/
def ackWindow : Nat := 14
/-- Bit times of an ACK: seven bytes (11.1). -/
def ackLength : Nat := 56
/-- The quiet gap of an urgent first attempt (R127). -/
def urgentGap : Nat := 16
/-- The quiet gap of a normal attempt with draw k (R127). -/
def normalGap (k : Nat) : Nat := 24 + 4 * k
/-- The quiet gap of an urgent retry with draw k (R127). -/
def urgentRetryGap (k : Nat) : Nat := 16 + k
/-- The largest value of a link counter (R143). -/
def counterMax : Nat := 65535
/-- Bytes of the configuration image (11.2). -/
def imageBytes : Nat := 30
/-- The last location of the host window (R175). -/
def windowLast : Nat := 0x184

end Sys2Proof.Machine
end

