-- ==== Sys2Proof/Machine/Flags.lean ====
section
/-! DEFINITION. The event flags, INT and the request and result codes as bytes (R168, R169, R176). -/

namespace Sys2Proof.Machine

/-- The eleven events (R168). -/
inductive Event
  | peerJoined | peerLost | contractsChanged | roleChanged | pathTripped | alert | addressConflict | resultReady
  | requestLost | linkGiveup | stateChanged
deriving DecidableEq, Repr

/-- The bit of an event in the flags and the mask (R176). -/
def Event.index : Event → Nat
  | .peerJoined => 0
  | .peerLost => 1
  | .contractsChanged => 2
  | .roleChanged => 3
  | .pathTripped => 4
  | .alert => 5
  | .addressConflict => 6
  | .resultReady => 7
  | .requestLost => 8
  | .linkGiveup => 9
  | .stateChanged => 10

/-- The event's bit as a 16-bit value. -/
def Event.bit (e : Event) : BitVec 16 := 1#16 <<< e.index

/-- The bits of the eleven events; bits 11 to 15 read 0 (R176). -/
def eventBits : BitVec 16 := 0x07FF

/-- Sets an event flag; a flag already set stays set (R168). -/
def setEvent (e : Event) (s : State) : State := { s with host.flags := s.host.flags ||| e.bit }

/-- Whether an event flag is set. -/
def hasEvent (e : Event) (s : State) : Bool := (s.host.flags &&& e.bit) != 0

/-- INT is asserted while a flag is set whose enable is set (R169). -/
def intLevel (h : HostPort) : Bool := (h.flags &&& h.mask) != 0

/-- A flag clear: each flag whose written bit is 1 is cleared (R168). -/
def clearFlags (v : BitVec 16) (s : State) : State := { s with host.flags := s.host.flags &&& ~~~v }

/-- The code of a result (R176). -/
def ResultCode.byte : ResultCode → Byte
  | .done => 1
  | .refusedState => 2
  | .refusedArg => 3
  | .aborted => 4

/-- The code of a long request's kind (R176). -/
def LongKind.byte : LongKind → Byte
  | .setRole => 3
  | .leave => 4
  | .rejoin => 5

/-- The code of a station state (R176). -/
def Station.byte : Station → Byte
  | .loading => 1
  | .listening => 2
  | .joined => 3
  | .leaving => 4
  | .offline => 5
  | .configFault => 6
  | .duplicate => 7

/-- The code of a path state (R176). -/
def PathState.byte : PathState → Byte
  | .opened => 0
  | .ramping => 1
  | .closed => 2
  | .tripped => 3

/-- The code of a reset cause (R176). -/
def ResetCause.byte : ResetCause → Byte
  | .powerOn => 1
  | .pin => 2
  | .command => 3

/-- The code of a fault and its field index (R176). -/
def FaultCode.bytes : FaultCode → Byte × Byte
  | .none => (0, 0)
  | .noMemory => (1, 0)
  | .badMarker => (2, 0)
  | .badVersion => (3, 0)
  | .badCrc => (4, 0)
  | .badField i => (5, BitVec.ofNat 8 i)

/-- The code of a start role, SET_ROLE target or drain target (11.2, R176). -/
def Target.code : Target → Nat
  | .idle => 0
  | .taker => 1
  | .supplier => 2

/-- The target a code stands for; 3 and above is out of range (R176). -/
def Target.ofCode : Nat → Option Target
  | 0 => some .idle
  | 1 => some .taker
  | 2 => some .supplier
  | _ => none

/-- The code of a role value (11.1). -/
def RoleValue.code : RoleValue → Nat
  | .idle => 0
  | .taker => 1
  | .supplier => 2
  | .drainingTake => 3
  | .drainingSupply => 4

/-- The role value a code stands for; above 4 is out of range (R173). -/
def RoleValue.ofCode : Nat → Option RoleValue
  | 0 => some .idle
  | 1 => some .taker
  | 2 => some .supplier
  | 3 => some .drainingTake
  | 4 => some .drainingSupply
  | _ => none

/-- The value of a role, without its drain target (R29). -/
def Role.value : Role → RoleValue
  | .idle => .idle
  | .taker => .taker
  | .supplier => .supplier
  | .drainingTake _ _ => .drainingTake
  | .drainingSupply _ _ => .drainingSupply

/-- The drain target of a draining role (R81). -/
def Role.target : Role → Option Target
  | .drainingTake t _ => some t
  | .drainingSupply t _ => some t
  | _ => none

/-- The role a target names. -/
def Target.role : Target → Role
  | .idle => .idle
  | .taker => .taker
  | .supplier => .supplier

end Sys2Proof.Machine
end

