-- ==== Sys2Proof/Machine/Formats.lean ====
section
/-! DEFINITION. The layouts of chapter 11: CRC, frames and their check, the configuration image, the snapshot
entries. -/

namespace Sys2Proof.Machine

/-! ### Numbers in bytes -/

/-- A two-byte value, most significant byte first. -/
def be16 (hi lo : Byte) : Nat := 256 * hi.toNat + lo.toNat

/-- The two bytes of a value, most significant first. -/
def put16 (n : Nat) : List Byte := [BitVec.ofNat 8 (n / 256), BitVec.ofNat 8 n]

/-- One byte of a value. -/
def put8 (n : Nat) : Byte := BitVec.ofNat 8 n

/-- A byte of which only some bits are flags. -/
def bitByte (b : Bool) (i : Nat) : Byte := if b then 1#8 <<< i else 0

/-! ### CRC-16 (R171) -/

/-- One bit of the CRC, polynomial 0x1021, most significant bit first. -/
def crcBit (c : BitVec 16) : BitVec 16 := if c.msb then (c <<< 1) ^^^ 0x1021 else c <<< 1

/-- One byte of the CRC. -/
def crcByte (c : BitVec 16) (b : Byte) : BitVec 16 :=
  crcBit (crcBit (crcBit (crcBit (crcBit (crcBit (crcBit (crcBit (c ^^^ (b.setWidth 16 <<< 8)))))))))

/-- The CRC-16 of a run of bytes: initial value 0xFFFF, no final inversion (R171). -/
def crc16 (bs : List Byte) : BitVec 16 := bs.foldl crcByte 0xFFFF

/-- The CRC as stored: most significant byte first. -/
def crcBytes (bs : List Byte) : List Byte := put16 (crc16 bs).toNat

/-! ### Frames (11.1) -/

/-- The kind code of a payload. -/
def Payload.kind : Payload → Nat
  | .declare _ => 1
  | .ask .. => 2
  | .grant .. => 3
  | .hold .. => 4
  | .decline .. => 5
  | .trim .. => 6
  | .recall .. => 7
  | .yield .. => 8
  | .release .. => 9
  | .alert _ => 10
  | .ack => 11

/-- The five bytes of a summary. -/
def Summary.bytes (m : Summary) : List Byte := [put8 m.counterpart, put8 m.id] ++ put16 m.amount ++ [m.revision]

/-- The flags byte of a DECLARE: bits 3 to 7 are sent as 0. -/
def Declare.flagByte (d : Declare) : Byte := bitByte d.unpowered 0 ||| bitByte d.sheddable 1 ||| bitByte d.leaving 2

/-- The bytes of a payload. -/
def Payload.bytes : Payload → List Byte
  | .declare d =>
    [put8 d.role, d.flagByte, d.incarnation, put8 d.period] ++ put16 d.capacity ++ put16 d.spare ++ put16 d.unmet
      ++ [put8 d.summaries.length] ++ d.summaries.flatMap Summary.bytes
  | .ask r a m i => [put8 r] ++ put16 a ++ put16 m ++ [put8 i]
  | .grant r i a v => [put8 r, put8 i] ++ put16 a ++ [v]
  | .hold r t => [put8 r] ++ put16 t
  | .decline r c => [put8 r, put8 c]
  | .trim i a v => [put8 i] ++ put16 a ++ [v]
  | .recall i a v => [put8 i] ++ put16 a ++ [v]
  | .yield i a v => [put8 i] ++ put16 a ++ [v]
  | .release p i => [put8 p, put8 i]
  | .alert u => put16 u
  | .ack => []

/-- The payload length of each kind (11.1). -/
def Payload.length : Payload → Nat
  | .declare d => 11 + 5 * d.summaries.length
  | .ask .. => 6
  | .grant .. => 5
  | .hold .. => 3
  | .decline .. => 2
  | .trim .. => 4
  | .recall .. => 4
  | .yield .. => 4
  | .release .. => 2
  | .alert _ => 2
  | .ack => 0

/-- The start delimiter. -/
def delimiter : Byte := 0xB4

/-- Offsets 1 to 4 + n of a frame: what its CRC covers. -/
def Frame.covered (f : Frame) : List Byte :=
  [put8 f.dst, put8 f.src, put8 (16 * f.body.kind + f.seq.toNat), put8 f.body.length] ++ f.body.bytes

/-- A frame as it goes onto the line. -/
def Frame.bytes (f : Frame) : List Byte := [delimiter] ++ f.covered ++ crcBytes f.covered

/-- Bit times of a frame on the line: seven bytes of framing around its payload. -/
def frameTime (p : Payload) : Nat := 8 * (7 + p.length)

/-- The summaries at the end of a DECLARE's payload. -/
def parseSummaries : List Byte → List Summary
  | c :: i :: a1 :: a0 :: r :: rest => ⟨c.toNat, i.toNat, be16 a1 a0, r⟩ :: parseSummaries rest
  | _ => []

/-- The payload of a kind, read from its bytes. -/
def parsePayload (kind : Nat) (bs : List Byte) : Option Payload :=
  match kind, bs with
  | 1, r :: f :: n :: p :: c1 :: c0 :: s1 :: s0 :: u1 :: u0 :: _ :: rest =>
    some (.declare ⟨r.toNat, f.getLsbD 0, f.getLsbD 1, f.getLsbD 2, n, p.toNat, be16 c1 c0, be16 s1 s0, be16 u1 u0,
      parseSummaries rest⟩)
  | 2, [r, a1, a0, m1, m0, i] => some (.ask r.toNat (be16 a1 a0) (be16 m1 m0) i.toNat)
  | 3, [r, i, a1, a0, v] => some (.grant r.toNat i.toNat (be16 a1 a0) v)
  | 4, [r, t1, t0] => some (.hold r.toNat (be16 t1 t0))
  | 5, [r, c] => some (.decline r.toNat c.toNat)
  | 6, [i, a1, a0, v] => some (.trim i.toNat (be16 a1 a0) v)
  | 7, [i, a1, a0, v] => some (.recall i.toNat (be16 a1 a0) v)
  | 8, [i, a1, a0, v] => some (.yield i.toNat (be16 a1 a0) v)
  | 9, [p, i] => some (.release p.toNat i.toNat)
  | 10, [u1, u0] => some (.alert (be16 u1 u0))
  | 11, [] => some .ack
  | _, _ => none

/-- What a reception turns out to be (R134, R172). -/
inductive Classified
  | fragment
  | malformed
  | valid (f : Frame)
deriving DecidableEq, Repr

/-- The payload length the kind table gives a kind, as a test; a DECLARE's is 11 + 5 × count with a count of at most 16
(R172, check 5). -/
def lengthFits (kind n : Nat) : Bool :=
  match kind with
  | 1 => 11 ≤ n && n ≤ 91 && (n - 11) % 5 == 0
  | 2 => n == 6
  | 3 => n == 5
  | 4 => n == 3
  | 5 => n == 2
  | 6 | 7 | 8 => n == 4
  | 9 | 10 => n == 2
  | 11 => n == 0
  | _ => false

/-- Checks 1 to 5 of R172 on the bytes that have arrived: each is decided as soon as the bytes it examines are there.
Check 4 examines both addresses with the kind, so it is decided at the kind byte; the two parts of check 5 are decided
apart, the length of the kind at the length byte and the count at its own byte (DEDUCED, log entry 22). -/
def earlyChecksPass (bs : List Byte) : Bool :=
  let at_ := fun i => (bs.getD i 0).toNat
  let here := fun i => decide (i < bs.length)
  let kind := at_ 3 / 16
  (!here 0 || at_ 0 == delimiter.toNat)
    && (!here 3 || (decide (1 ≤ kind) && decide (kind ≤ 11)))
    && (!here 3 || (decide (1 ≤ at_ 2) && decide (at_ 2 ≤ 30)
        && (if kind == 1 || kind == 10 then at_ 1 == 0 else decide (1 ≤ at_ 1) && decide (at_ 1 ≤ 30))))
    && (!here 4 || (decide (at_ 4 ≤ 96) && lengthFits kind (at_ 4)))
    && (!(here 15 && kind == 1) || at_ 4 == 11 + 5 * at_ 15)

/-- The frame check of R172 on a whole reception: the checks in the order in which they are decided, so that contention
makes a fragment only of a reception that has failed none yet (R125; log entry 22). -/
def classify (r : Reception) : Classified :=
  let bs := r.bytes
  let n := (bs.getD 4 0).toNat
  if !earlyChecksPass bs then .malformed
  else if bs.length < 5 ∨ bs.length < 7 + n then .fragment
  else if (bs.drop (5 + n)).take 2 ≠ crcBytes ((bs.drop 1).take (4 + n)) then .malformed
  else if r.lineEnd = .overrun ∨ r.bits ≠ 0 ∨ bs.length ≠ 7 + n then .malformed
  else if r.lineEnd = .contention then .fragment
  else
    let k := (bs.getD 3 0).toNat
    match parsePayload (k / 16) ((bs.drop 5).take n) with
    | none => .malformed
    | some p => .valid ⟨(bs.getD 1 0).toNat, (bs.getD 2 0).toNat, BitVec.ofNat 4 k, p⟩

/-! ### Payload ranges (R173, R174) -/

/-- A summary in range (R173). -/
def Summary.inRange (m : Summary) : Bool :=
  decide (1 ≤ m.counterpart ∧ m.counterpart ≤ 30 ∧ m.id ≠ 0 ∧ 1 ≤ m.amount ∧ m.amount ≤ maxAmount)

/-- A DECLARE in range (R173). -/
def Declare.inRange (d : Declare) : Bool :=
  decide (d.role ≤ 4 ∧ 10 ≤ d.period ∧ d.period ≤ 200 ∧ d.capacity ≤ fullScale ∧ d.spare ≤ fullScale
    ∧ d.unmet ≤ fullScale) && d.summaries.all Summary.inRange

/-- A payload in the ranges of the payload table, as checked at consumption (R174); a DECLARE is checked at reception
(R173), and an ALERT is accepted whatever it carries. -/
def Payload.inRange : Payload → Bool
  | .ask r a m i => decide (1 ≤ r ∧ r ≤ 15 ∧ 1 ≤ a ∧ a ≤ maxAmount ∧ 1 ≤ m ∧ m ≤ a ∧ i ≤ 255)
  | .grant r i a _ => decide (1 ≤ r ∧ r ≤ 15 ∧ 1 ≤ i ∧ i ≤ 255 ∧ 1 ≤ a ∧ a ≤ maxAmount)
  | .hold r t => decide (1 ≤ r ∧ r ≤ 15 ∧ 10 ≤ t ∧ t ≤ 500)
  | .decline r c => decide (1 ≤ r ∧ r ≤ 15 ∧ 1 ≤ c ∧ c ≤ 4)
  | .trim i a _ => decide (1 ≤ i ∧ i ≤ 255 ∧ a ≤ maxAmount)
  | .recall i a _ => decide (1 ≤ i ∧ i ≤ 255 ∧ a ≤ maxAmount)
  | .yield i a _ => decide (1 ≤ i ∧ i ≤ 255 ∧ a ≤ maxAmount)
  | .release p i => decide (1 ≤ p ∧ p ≤ 30 ∧ 1 ≤ i ∧ i ≤ 255)
  | .declare _ => true
  | .alert _ => true
  | .ack => true

/-! ### The configuration image (R146, R147, 11.2) -/

/-- The outcome of the checks of R146. -/
inductive LoadOutcome
  | fault (code : FaultCode)
  | adopt (c : StationConfig)
deriving DecidableEq, Repr

/-- A one-byte field with a default: 0xFF takes it (11.2). -/
def default8 (v d : Nat) : Nat := if v = 0xFF then d else v

/-- A two-byte field with a default: 0xFFFF takes it (11.2). -/
def default16 (v d : Nat) : Nat := if v = 0xFFFF then d else v

/-- The fields of an image, with the defaults of R147 in place of use-default codes. The start role and sheddable field
are read by their codes; a code out of range is caught by `badFieldOf`. -/
def imageFields (bs : List Byte) : StationConfig :=
  let b := fun i => (bs.getD i 0).toNat
  let w := fun i => be16 (bs.getD i 0) (bs.getD (i + 1) 0)
  { address := b 3
    startRole := (Target.ofCode (b 4)).getD .idle
    capacity := w 5
    demand := w 7
    minGrant := default8 (b 9) 4
    period := default8 (b 10) 50
    askTimeout := default16 (w 11) 200
    holdTime := default16 (w 13) 50
    recallTimeout := default16 (w 15) 100
    overdrawGrace := default8 (b 17) 10
    shedGrace := default16 (w 18) 100
    overdrawMargin := default8 (b 20) 2
    rampTime := default8 (b 21) 5
    startAllowance := default8 (b 22) 2
    sheddable := b 23 == 1
    alertThreshold := w 24
    alertHoldoff := default16 (w 26) 1000 }

/-- A value in a range. -/
def within (v lo hi : Nat) : Bool := decide (lo ≤ v ∧ v ≤ hi)

/-- The range test of every field, in index order (R147). -/
def fieldTests (bs : List Byte) : List (Nat × Bool) :=
  let c := imageFields bs
  [(1, within c.address 1 30),
   (2, (Target.ofCode (bs.getD 4 0).toNat).isSome),
   (3, within c.capacity 0 2000),
   (4, within c.demand 0 2000),
   (5, within c.minGrant 1 40),
   (6, within c.period 10 200),
   (7, within c.askTimeout 50 1000),
   (8, within c.holdTime 10 500),
   (9, within c.recallTimeout 20 1000),
   (10, within c.overdrawGrace 1 100),
   (11, within c.shedGrace 10 500),
   (12, within c.overdrawMargin 1 20),
   (13, within c.rampTime 1 50),
   (14, within c.startAllowance 0 20),
   (15, within (bs.getD 23 0).toNat 0 1),
   (16, within c.alertThreshold 0 6000),
   (17, within c.alertHoldoff 200 5000)]

/-- The index of the first field out of range. -/
def badFieldOf (bs : List Byte) : Option Nat := ((fieldTests bs).find? (fun t => !t.2)).map Prod.fst

/-- The checks of R146 in order, on the image read within the time limit, or on none where the device did not acknowledge
or did not give the 30 bytes. -/
def checkImage (image : Option (List Byte)) : LoadOutcome :=
  match image with
  | none => .fault .noMemory
  | some bs =>
    if bs.length < imageBytes then .fault .noMemory
    else if be16 (bs.getD 0 0) (bs.getD 1 0) ≠ 0xE73A then .fault .badMarker
    else if (bs.getD 2 0).toNat ≠ 1 then .fault .badVersion
    else if (bs.drop 28).take 2 ≠ crcBytes (bs.take 28) then .fault .badCrc
    else
      match badFieldOf bs with
      | some i => .fault (.badField i)
      | none => .adopt (imageFields bs)

/-! ### Snapshot entries (11.4) -/

/-- The ten bytes of a READ_PEERS entry. -/
def Peer.bytes (p : Peer) : List Byte :=
  [put8 p.addr, p.incarnation,
    put8 p.role.code ||| bitByte p.unpowered 3 ||| bitByte p.sheddable 4 ||| bitByte (p.liveness = .silent) 5
      ||| bitByte p.skip 6,
    put8 p.period]
    ++ put16 p.capacity ++ put16 p.spare ++ put16 p.unmet

/-- The state code of a record (11.4). -/
def RecordState.code : RecordState → Nat
  | .provisional => 0
  | .active => 1
  | .raising _ _ => 2
  | .recalling _ _ _ => 3
  | .closing => 4

/-- The owed-notice code of a record (11.4). -/
def noticeCode : Option Notice → Nat
  | none => 0
  | some .trim => 1
  | some .recall => 2
  | some .yield => 3
  | some .release => 4

/-- The auxiliary amount of a record (R16). -/
def Record.auxiliary (r : Record) : Nat :=
  match r.state with
  | .recalling t _ _ => t
  | .raising p _ => p
  | _ => 0

/-- The nine bytes of a READ_CONTRACTS entry. -/
def Record.bytes (r : Record) : List Byte :=
  [put8 r.supplier, put8 r.id, put8 r.counterpart,
    bitByte (r.side = .take) 0 ||| put8 (2 * r.state.code) ||| put8 (16 * noticeCode r.owed) ||| bitByte (r.miss = 1) 7]
    ++ put16 r.amount ++ [r.revision] ++ put16 r.auxiliary

end Sys2Proof.Machine
end

