-- ==== Sys2Proof/Machine/Operands.lean ====
section
/-! DEFINITION. Reading the state: the configuration and own address, the revision order, the sums derived from the
tables, and the searches the rules make (chapters 1 to 5). Nothing here changes the state. -/

namespace Sys2Proof.Machine

/-! ### Station and configuration -/

/-- The configuration read where none is held; only states in which no rule reads it hold none (R149). -/
def StationConfig.absent : StationConfig where
  address := 0
  startRole := .idle
  capacity := 0
  demand := 0
  minGrant := 0
  period := 0
  askTimeout := 0
  holdTime := 0
  recallTimeout := 0
  overdrawGrace := 0
  shedGrace := 0
  overdrawMargin := 0
  rampTime := 0
  startAllowance := 0
  sheddable := false
  alertThreshold := 0
  alertHoldoff := 0

/-- The configuration in force. -/
def cfg (s : State) : StationConfig := s.control.config.getD StationConfig.absent

/-- The station's own address (R147). -/
def ownAddress (s : State) : Nat := (cfg s).address

/-- JOINED or LEAVING: the states in which the station transmits and its engine consumes frames (R144). -/
def Station.speaks : Station → Bool
  | .joined => true
  | .leaving => true
  | _ => false

/-- LISTENING, JOINED or LEAVING: the states in which the receiver is on (R126, R144). -/
def Station.hears : Station → Bool
  | .listening => true
  | .joined => true
  | .leaving => true
  | _ => false

/-- The declaration period in bit times (R147: units of 10 ms). -/
def periodTime (period : Nat) : Nat := ms (10 * period)

/-! ### Revision order (00_scope.md, "Revision order") -/

/-- a is newer than b: (a − b) mod 256 is in 1 to 127. -/
def newer (a b : Revision) : Bool := decide (1 ≤ (a - b).toNat ∧ (a - b).toNat ≤ 127)

/-- a is newer than or equal to b. -/
def newerOrEqual (a b : Revision) : Bool := newer a b || a == b

/-- The newer of two revisions; the first where neither is newer than the other. -/
def newest (a b : Revision) : Revision := if newer b a then b else a

/-- Two revisions at distance 128. -/
def farApart (a b : Revision) : Bool := (a - b).toNat == 128

/-! ### Records -/

/-- The record carries the contract key (R1). -/
def Record.hasKey (supplier id : Nat) (r : Record) : Bool := r.supplier == supplier && r.id == id

/-- A supplier-side record. -/
def Record.isSupply (r : Record) : Bool := r.side = .supply

/-- A taker-side record. -/
def Record.isTake (r : Record) : Bool := r.side = .take

/-- The record is ACTIVE. -/
def Record.isActive (r : Record) : Bool := r.state = .active

/-- The record is CLOSING. -/
def Record.isClosing (r : Record) : Bool := r.state = .closing

/-- The record is PROVISIONAL or RAISING: its GRANT is not resolved (4.3). -/
def Record.isOpenGrant (r : Record) : Bool :=
  match r.state with
  | .provisional => true
  | .raising _ _ => true
  | _ => false

/-- The record is RECALLING. -/
def Record.isRecalling (r : Record) : Bool :=
  match r.state with
  | .recalling _ _ _ => true
  | _ => false

/-- The contribution of a record to committed (R14). -/
def Record.committed (r : Record) : Nat := if r.isSupply && !r.isClosing then r.amount else 0

/-- The contribution of a record to held (R15). -/
def Record.held (r : Record) : Nat := if r.isTake && r.isActive then r.amount else 0

/-- What a recall in progress will take off a record (R70). -/
def Record.recallCover (r : Record) : Nat :=
  match r.side, r.state with
  | .supply, .recalling t _ _ => r.amount - t
  | _, _ => 0

/-- A record's state without its optional fields, which R16 does not report as a change. -/
def Record.visible (r : Record) : Nat × Revision × Nat := (r.amount, r.revision, r.state.code)

/-- The record with a key in a table. -/
def findRecord (supplier id : Nat) (t : List Record) : Option Record := t.find? (Record.hasKey supplier id)

/-- The supplier-side record of this station with a contract id. -/
def findSupply (s : State) (id : Nat) : Option Record :=
  (findRecord (ownAddress s) id s.engine.table).filter Record.isSupply

/-- The taker-side record with a key. -/
def findTake (s : State) (supplier id : Nat) : Option Record :=
  (findRecord supplier id s.engine.table).filter Record.isTake

/-! ### Sums (R14, R15, R61) -/

/-- Committed. -/
def committed (s : State) : Nat := (s.engine.table.map Record.committed).sum

/-- Held. -/
def held (s : State) : Nat := (s.engine.table.map Record.held).sum

/-- Effective capacity: 0 while the local supply is absent. -/
def effectiveCapacity (s : State) : Nat := if s.engine.supply then s.engine.capacity else 0

/-- Free: effective capacity minus committed, signed. -/
def free (s : State) : Int := (effectiveCapacity s : Int) - committed s

/-- Unmet demand. -/
def unmetDemand (s : State) : Nat := s.engine.demand - held s

/-- Outstanding ask amount. -/
def outstanding (s : State) : Nat := (s.engine.asks.map Ask.amount).sum

/-- The need: unmet demand minus the outstanding ask amount (R42). -/
def need (s : State) : Nat := unmetDemand s - outstanding s

/-- The uncovered excess, 0 when negative (R70). -/
def uncovered (s : State) : Nat :=
  ((committed s : Int) - (s.engine.table.map Record.recallCover).sum - effectiveCapacity s).toNat

/-! ### Peers and asks -/

/-- The entry of an address. -/
def findPeer (s : State) (a : Nat) : Option Peer := s.peers.find? (fun p => p.addr == a)

/-- The address has an entry. -/
def knownPeer (s : State) (a : Nat) : Bool := s.peers.any (fun p => p.addr == a)

/-- The pending ask to a supplier; there is at most one (R40). -/
def findAsk (s : State) (supplier : Nat) : Option Ask := s.engine.asks.find? (fun a => a.supplier == supplier)

/-- The pending ask an answer matches (R41). -/
def matchingAsk (s : State) (supplier requestId : Nat) : Option Ask :=
  s.engine.asks.find? (fun a => a.supplier == supplier && a.requestId == requestId)

/-- A pending raise names the record (R55). -/
def raiseNames (s : State) (r : Record) : Bool :=
  r.isTake && s.engine.asks.any (fun a => a.supplier == r.supplier && a.raised == some r.id)

/-- Places of the Contract Table reserved by asks for new contracts (R10). -/
def reservedPlaces (s : State) : Nat := (s.engine.asks.filter (fun a => a.raised.isNone)).length

/-- The taker-side record with a supplier; there is at most one (R2). -/
def takeWith (s : State) (supplier : Nat) : Option Record :=
  s.engine.table.find? (fun r => r.isTake && r.supplier == supplier)

/-- The peer is a candidate supplier (R43). -/
def isCandidate (s : State) (p : Peer) : Bool :=
  decide (p.liveness = .active) && decide (p.role = .supplier) && decide ((cfg s).minGrant ≤ p.spare)
    && (findAsk s p.addr).isNone && !p.skip
    && (match takeWith s p.addr with
      | some r => r.isActive && decide ((cfg s).minGrant ≤ maxAmount - r.amount)
      | none => decide (s.engine.table.length + reservedPlaces s < contractPlaces))

/-- The candidate with the largest declared spare, of equals the one with the lowest address (R44); the entries stand in
address order. -/
def bestCandidate (s : State) : Option Peer :=
  (s.peers.filter (isCandidate s)).foldl
    (fun best p => match best with
      | none => some p
      | some b => if b.spare < p.spare then some p else some b) none

/-! ### Roles -/

/-- The supply test fails (R83). -/
def supplyTestFails (s : State) : Bool :=
  s.control.unpowered || !s.engine.supply || decide (s.path.state = .tripped)

/-- The start role on entry to JOINED (R82). -/
def startRole (s : State) : Role :=
  if s.control.unpowered then .taker
  else
    match (cfg s).startRole with
    | .idle => .idle
    | .taker => .taker
    | .supplier => if s.engine.supply then .supplier else .idle

/-! ### Queues -/

/-- A DECLARE waits in the normal queue. -/
def OutFrame.isDeclare (f : OutFrame) : Bool :=
  match f.body with
  | .declare _ => true
  | .fixed _ => false

/-- A DECLARE waits, or is current or pre-empted (R31, R133). -/
def declareInLink (s : State) : Bool :=
  s.link.normal.any OutFrame.isDeclare || s.link.current.any (fun c => c.frame.isDeclare)
    || s.link.preempted.any (fun c => c.frame.isDeclare)

/-- The normal queue has a free place. -/
def normalRoom (s : State) : Bool := decide (s.link.normal.length < normalPlaces)

end Sys2Proof.Machine
end

