-- ==== Sys2Proof/Machine/Ops.lean ====
section
/-! DEFINITION. The shared operations on the tables and queues: the clock, records, asks, peers, owed notices, the
completion of requests (chapters 1 to 4, 8, 10). -/

namespace Sys2Proof.Machine

/-! ### The clock -/

/-- Brings the clock to a time; a time already past leaves it. An ACK whose last bit has passed is no longer driven, and
the line is idle from its end (R136). -/
def reach (t : Nat) (s : State) : State :=
  let n := max s.now t
  match s.link.ackOut with
  | some a =>
    if a.start + ackLength ≤ n then
      { s with now := n, link.ackOut := none, link.idleSince := some (a.start + ackLength) }
    else { s with now := n }
  | none => { s with now := n }

/-- Lets dt bit times pass. -/
def advance (dt : Nat) (s : State) : State := reach (s.now + dt) s

/-! ### Marks of change -/

/-- Makes a DECLARE change pending (R32); the builder acts only in JOINED and LEAVING (R31). -/
def noteChange (s : State) : State :=
  if s.control.station.speaks then { s with engine.changePending := true } else s

/-- Marks a change of the Contract Table (R16). -/
def noteContracts (s : State) : State := setEvent .contractsChanged s

/-- Increments a link counter, which stops at its largest value (R143). -/
def bump (n : Nat) : Nat := min counterMax (n + 1)

/-! ### Records -/

/-- Replaces the record with the key of `new` by it, with the marks R16 and R32 give the difference. -/
def putRecord (new : Record) (s : State) : State :=
  match findRecord new.supplier new.id s.engine.table with
  | none => s
  | some old =>
    let s1 := { s with
      engine.table := s.engine.table.map fun r => if r.hasKey new.supplier new.id then new else r }
    let s2 := if old.visible = new.visible then s1 else noteContracts s1
    if old.amount ≠ new.amount ∨ (new.isClosing = true ∧ old.isClosing = false) then noteChange s2 else s2

/-- Appends a record (R9). -/
def addRecord (r : Record) (s : State) : State :=
  noteChange (noteContracts { s with engine.table := s.engine.table ++ [r] })

/-- Removes the records that meet a test; the rest close up in their order (R9). -/
def dropRecords (p : Record → Bool) (s : State) : State :=
  if s.engine.table.any p then
    noteChange (noteContracts { s with engine.table := s.engine.table.filter fun r => !p r })
  else s

/-- Removes the record with a key. -/
def dropRecord (supplier id : Nat) (s : State) : State := dropRecords (Record.hasKey supplier id) s

/-! ### Queues -/

/-- Places a frame at the tail of the normal queue; a placement into a full queue is refused (R140). -/
def enqueue (f : OutFrame) (s : State) : State :=
  if normalRoom s then { s with link.normal := s.link.normal ++ [f] } else s

/-- Places an answer to a consumed frame (R141). -/
def answer (dst : Nat) (p : Payload) (s : State) : State := enqueue ⟨dst, .fixed p, 0⟩ s

/-- Withdraws an ASK frame that has not begun its first attempt (R52). -/
def withdraw (ref : Nat) (s : State) : State :=
  { s with link.normal := s.link.normal.filter fun f => f.ref != ref }

/-! ### Asks -/

/-- An ask gives up its ASK frame: a frame not yet begun is withdrawn (R48, R51, R52). -/
def releaseFrame (a : Ask) (s : State) : State :=
  match a.state with
  | .queued ref => withdraw ref s
  | _ => s

/-- Removes the pending ask to a supplier (R52). -/
def removeAsk (supplier : Nat) (s : State) : State :=
  match findAsk s supplier with
  | none => s
  | some a => releaseFrame a { s with engine.asks := s.engine.asks.filter fun b => b.supplier != supplier }

/-- Removes every pending ask, without skip flags (R52). -/
def removeAllAsks (s : State) : State := (s.engine.asks.map Ask.supplier).foldl (fun t a => removeAsk a t) s

/-- Removes the pending raise that names a taker-side record (R52). -/
def removeRaise (r : Record) (s : State) : State := if raiseNames s r then removeAsk r.supplier s else s

/-- Changes the pending ask to a supplier. -/
def updateAsk (supplier : Nat) (f : Ask → Ask) (s : State) : State :=
  { s with engine.asks := s.engine.asks.map fun a => if a.supplier == supplier then f a else a }

/-! ### Peers -/

/-- Changes the entry of an address. -/
def updatePeer (addr : Nat) (f : Peer → Peer) (s : State) : State :=
  { s with peers := s.peers.map fun p => if p.addr == addr then f p else p }

/-- Sets the skip flag of an entry (R28). -/
def setSkip (addr : Nat) (s : State) : State := updatePeer addr (fun p => { p with skip := true }) s

/-- Ends an ask without a grant: it is removed and the supplier's skip flag is set (R28, R46, R47, R48, R50). -/
def failAsk (supplier : Nat) (s : State) : State := setSkip supplier (removeAsk supplier s)

/-- Puts an entry in its place in address order, over any entry of the same address (R18). -/
def insertPeer (p : Peer) : List Peer → List Peer
  | [] => [p]
  | q :: qs => if p.addr < q.addr then p :: q :: qs else if p.addr = q.addr then p :: qs else q :: insertPeer p qs

/-- Loses an entry: the entry, the records with that counterpart and the ask to it go (R25, R101, R102). -/
def losePeer (addr : Nat) (s : State) : State :=
  if knownPeer s addr then
    setEvent .peerLost (removeAsk addr (dropRecords (fun r => r.counterpart == addr)
      { s with peers := s.peers.filter fun p => p.addr != addr }))
  else s

/-! ### Owed notices (1.6) -/

/-- The frame of a notice, its content taken from the record at the moment of placement (R13). -/
def noticeFrame (r : Record) (k : Notice) : OutFrame :=
  let body := match k with
    | .trim => Payload.trim r.id r.amount r.revision
    | .recall =>
      (match r.state with
      | .recalling t v _ => Payload.recall r.id t v
      | _ => Payload.recall r.id r.amount r.revision)
    | .yield => Payload.yield r.id (if r.isClosing then 0 else r.amount) r.revision
    | .release => Payload.release r.supplier r.id
  ⟨r.counterpart, .fixed body, 0⟩

/-- Places the notice a record owes, if it owes one and the queue has a place; a CLOSING record is removed with it, any
other empties its slot (R8, R12, R13). -/
def placeNotice (s : State) (r : Record) : State :=
  match r.owed with
  | none => s
  | some k =>
    if normalRoom s then
      let t := enqueue (noticeFrame r k) s
      if r.isClosing then dropRecord r.supplier r.id t else putRecord { r with owed := none } t
    else s

/-- Places owed notices, oldest record first, while the queue has places (R12, R13). -/
def placeNotices (s : State) : State := s.engine.table.foldl placeNotice s

/-! ### Closing and recalling -/

/-- Closes a taker-side record with a notice decided for it; a raise that names it is removed (R7, R52). -/
def closeTake (k : Notice) (r : Record) (s : State) : State :=
  removeRaise r (putRecord { r with state := .closing, owed := some k } s)

/-- Closes every ACTIVE taker-side record with RELEASE decided, oldest first (R84, R116, R122). -/
def closeAllTake (s : State) : State :=
  (s.engine.table.filter fun r => r.isTake && r.isActive).foldl (fun t r => closeTake .release r t) s

/-- Puts an ACTIVE supplier-side record into recall with a target (R71 step 3 and 4). -/
def startRecall (target : Nat) (r : Record) (s : State) : State :=
  putRecord { r with
    state := .recalling target (r.revision + 1) (s.now + ms (cfg s).recallTimeout)
    owed := some .recall } s

/-- The owed notice that stays when a record leaves RECALLING: an owed RECALL is discarded (R13). -/
def dropOwedRecall : Option Notice → Option Notice
  | some .recall => none
  | k => k

/-- Resolves a recall with a reported amount and revision (R75). -/
def resolveRecall (a : Nat) (v : Revision) (r : Record) (s : State) : State :=
  match r.state with
  | .recalling _ tv _ =>
    if min a r.amount = 0 then dropRecord r.supplier r.id s
    else putRecord { r with
      amount := min a r.amount
      revision := newest v tv
      state := .active
      owed := dropOwedRecall r.owed } s
  | _ => s

/-- A frame or summary with amount a and revision v resolves the recall of a record (R74, R100). -/
def resolves (a : Nat) (v : Revision) (r : Record) : Bool :=
  match r.state with
  | .recalling t tv _ => newerOrEqual v tv || (v == r.revision && decide (a ≤ t))
  | _ => false

/-! ### Requests and results (R161) -/

/-- Writes a result into its reserved place. -/
def complete (tag kind : Byte) (code : ResultCode) (data : List Byte) (s : State) : State :=
  setEvent .resultReady { s with
    host.results := s.host.results ++ [⟨tag, kind, code, data⟩]
    host.reserved := s.host.reserved - 1 }

/-- Completes the request taken. -/
def finish (q : Request) (code : ResultCode) (s : State) : State := complete q.tag q.kind code [] s

/-- Completes the long request in progress, if there is one. -/
def completeLong (code : ResultCode) (s : State) : State :=
  match s.host.long with
  | none => s
  | some l => complete l.tag l.kind.byte code [] { s with host.long := none }

/-! ### The trip and shedding -/

/-- The trip of the path (R116, steps 1 to 3 and 5). -/
def tripPath (s : State) : State :=
  setEvent .pathTripped (removeAllAsks (closeAllTake
    { s with path.state := .tripped, path.overdraw := none, path.shedEnd := none, path.rampEnd := none }))

/-- The effects of a consumed ALERT: the event in every role, shedding in a sheddable taker (R121, R122). -/
def alertEffect (s : State) : State :=
  let t := setEvent .alert s
  if t.engine.role = .taker ∧ (cfg t).sheddable = true then
    let u := removeAllAsks (closeAllTake t)
    { u with engine.suspendEnd := some (u.now + ms (cfg u).alertHoldoff) }
  else t

end Sys2Proof.Machine
end

