-- ==== Sys2Proof/Machine/Builder.lean ====
section
/-! DEFINITION. The declaration builder: the content of the station's DECLARE, when one is due and where it is placed
(2.6, R29 to R34). -/

namespace Sys2Proof.Machine

/-- The summary of a record (R30). -/
def Record.summary (r : Record) : Summary := ⟨r.counterpart, r.id, r.amount, r.revision⟩

/-- The records a role lists (R30). -/
def Role.lists (role : Role) (r : Record) : Bool :=
  match role with
  | .idle => false
  | .taker | .drainingTake _ _ => r.isTake && r.isActive
  | .supplier | .drainingSupply _ _ =>
    r.isSupply && (match r.state with
      | .active => true
      | .raising _ _ => true
      | .recalling _ _ _ => true
      | _ => false)

/-- The content of a DECLARE at the start of an attempt (R29, R30), or of the final DECLARE (R34). -/
def composeDeclare (final : Bool) (s : State) : Declare where
  role := if final then RoleValue.idle.code else s.engine.role.value.code
  unpowered := s.control.unpowered
  sheddable := (cfg s).sheddable
  leaving := final
  incarnation := s.control.incarnation
  period := (cfg s).period
  capacity := effectiveCapacity s
  spare := if final then 0 else if s.engine.role = .supplier then (free s).toNat else 0
  unmet := if final then 0 else if s.engine.role = .taker then unmetDemand s else 0
  summaries := if final then [] else (s.engine.table.filter s.engine.role.lists).map Record.summary

/-- The content of an attempt of an outbound frame. -/
def composeBody (b : OutBody) (s : State) : Payload :=
  match b with
  | .declare final => .declare (composeDeclare final s)
  | .fixed p => p

/-- A change of role value, unpowered flag or effective capacity since `pre` makes a change pending (R32). -/
def noteDeclared (pre s : State) : State :=
  if pre.engine.role.value = s.engine.role.value ∧ pre.control.unpowered = s.control.unpowered
      ∧ effectiveCapacity pre = effectiveCapacity s then s
  else noteChange s

/-- The 50 ms spacing from the last declaration instant has ended (R31, R32). -/
def spacingOver (s : State) : Bool :=
  match s.engine.lastInstant with
  | some t => decide (t + declareSpacing ≤ s.now)
  | none => false

/-- A DECLARE falls due by a pending change (R32); none does once the final DECLARE is due (R34). -/
def dueByChange (s : State) : State :=
  if s.engine.changePending && !s.engine.finalDue && !s.engine.declareDue && !declareInLink s && spacingOver s then
    { s with engine.declareDue := true }
  else s

/-- Puts a due DECLARE, final or not, in the place of the waiting one (R33, R34, R140). -/
def takePlace (final : Bool) : List OutFrame → List OutFrame
  | [] => []
  | f :: rest => if f.isDeclare then ⟨0, .declare final, 0⟩ :: rest else f :: takePlace final rest

/-- Gives the due DECLARE its place: that of a waiting DECLARE, else the tail while there is room (R33). The final one keeps
the waiting one's place too (R34), so that a notice placed behind that place stays behind it, against R152's remark that the
notices are transmitted before it (DEDUCED, log entry 28). -/
def placeDeclare (s : State) : State :=
  if s.engine.declareDue then
    if s.link.normal.any OutFrame.isDeclare then
      { s with engine.declareDue := false, link.normal := takePlace s.engine.finalDue s.link.normal }
    else if normalRoom s then
      { s with engine.declareDue := false, link.normal := s.link.normal ++ [⟨0, .declare s.engine.finalDue, 0⟩] }
    else s
  else s

/-- The builder's turn: changes since `pre`, a DECLARE falling due by them, its place. -/
def builderTurn (pre s : State) : State := placeDeclare (dueByChange (noteDeclared pre s))

/-- Makes the final DECLARE due (R34). -/
def dueFinal (s : State) : State := { s with engine.finalDue := true, engine.declareDue := true }

/-- The builder as it begins: no DECLARE due, no change pending, no declaration instant (R36). -/
def clearBuilder (s : State) : State :=
  { s with
    engine.declareDue := false
    engine.finalDue := false
    engine.changePending := false
    engine.lastInstant := none }

end Sys2Proof.Machine
end

