-- ==== Sys2Proof/Machine/Settle.lean ====
section
/-! DEFINITION. What acts at the end of every happening, in one order: recalls, trims, places of the normal queue, the
drain's end, new asks, the limit and the path, the change events, the outputs (R12, R13, R33, R42, R49, R55, R71, R87,
R95 step 4, R110 to R114, R156, R169). -/

namespace Sys2Proof.Machine

/-! ### Recall planning (R70, R71) -/

/-- The record was ACTIVE before the happening. -/
def wasActive (pre : State) (r : Record) : Bool :=
  pre.engine.table.any fun q => q.hasKey r.supplier r.id && q.isSupply && q.isActive

/-- The ACTIVE supplier-side records in planning order: those that became ACTIVE in this happening first, newest first,
then the others, newest first (R71, R95). -/
def planOrder (pre s : State) : List Record :=
  let act := s.engine.table.filter fun r => r.isSupply && r.isActive
  (act.filter fun r => !wasActive pre r).reverse ++ (act.filter fun r => wasActive pre r).reverse

/-- The target of a record's recall against an uncovered excess x (R71, steps 1 and 2). -/
def recallTarget (minGrant amount x : Nat) : Nat :=
  let t := amount - min amount x
  if t < minGrant then 0 else t

/-- Plans one record while the uncovered excess is positive (R71). -/
def planOne (s : State) (r : Record) : State :=
  if uncovered s = 0 then s else startRecall (recallTarget (cfg s).minGrant r.amount (uncovered s)) r s

/-- Puts every ACTIVE supplier-side record into recall to 0, oldest first (R85, R86). -/
def recallAll (s : State) : State :=
  (s.engine.table.filter fun r => r.isSupply && r.isActive).foldl (fun t r => startRecall 0 r t) s

/-- Recall planning in SUPPLIER, recall to 0 in DRAINING_SUPPLY (R71, R86). -/
def planRecalls (pre s : State) : State :=
  match s.engine.role with
  | .supplier => (planOrder pre s).foldl planOne s
  | .drainingSupply _ _ => recallAll s
  | _ => s

/-! ### Trims (R55) -/

/-- Trims one taker-side record while held exceeds demand. -/
def trimOne (s : State) (r : Record) : State :=
  if held s ≤ s.engine.demand ∨ (r.isTake && r.isActive) = false ∨ raiseNames s r = true then s
  else
    let excess := held s - s.engine.demand
    if r.amount ≤ excess then closeTake .release r s
    else putRecord { r with amount := r.amount - excess, revision := r.revision + 1, owed := some .trim } s

/-- Trims taker-side records, newest first, in role TAKER. -/
def trimExcess (s : State) : State :=
  if s.engine.role = .taker then s.engine.table.reverse.foldl trimOne s else s

/-! ### The end of a drain (R87) -/

/-- Ends a drain with its target and purpose. -/
def endDrain (target : Target) (purpose : Purpose) (s : State) : State :=
  let refused := decide (target = .supplier) && supplyTestFails s
  let t := { s with engine.role := if refused then .idle else target.role }
  match purpose with
  | .setRole _ => completeLong (if refused then .refusedState else .done) t
  | .leaving => dueFinal t

/-- Ends the drain in progress when no record of the side being left remains. -/
def checkDrain (s : State) : State :=
  match s.engine.role with
  | .drainingTake target purpose =>
    if s.engine.table.any Record.isTake then s else endDrain target purpose s
  | .drainingSupply target purpose =>
    if s.engine.table.any Record.isSupply then s else endDrain target purpose s
  | _ => s

/-! ### Asks (R42 to R44, R49) -/

/-- The ASK frame of an ask. -/
def askFrame (a : Ask) (ref : Nat) : OutFrame :=
  ⟨a.supplier, .fixed (.ask a.requestId a.amount a.minimum (a.raised.getD 0)), ref⟩

/-- The ask whose hold ended earliest, of equals the one started first (R49). -/
def nextWaiting (asks : List Ask) : Option Ask :=
  (asks.foldl
    (fun best a => match a.state, best with
      | .waiting t, none => some (t, a)
      | .waiting t, some (u, b) => if t < u then some (t, a) else some (u, b)
      | _, _ => best) (none : Option (Nat × Ask))).map Prod.snd

/-- Re-queues asks whose hold has ended while the normal queue has places (R49). -/
def requeueAsks : Nat → State → State
  | 0, s => s
  | n + 1, s =>
    match nextWaiting s.engine.asks with
    | none => s
    | some a =>
      if normalRoom s then
        let ref := s.engine.nextRef
        let t := enqueue (askFrame a ref) s
        let u := updateAsk a.supplier (fun b => { b with state := .queued ref }) t
        requeueAsks n { u with engine.nextRef := ref + 1 }
      else s

/-- The conditions of R42 for a new ask, but for the candidate. -/
def mayAsk (s : State) : Bool :=
  decide (s.control.station = .joined) && decide (s.engine.role = .taker) && decide (s.path.state ≠ .tripped)
    && s.engine.suspendEnd.isNone && decide ((cfg s).minGrant ≤ need s)
    && decide (s.engine.asks.length < askPlaces) && normalRoom s

/-- The ask started to a candidate (R44). -/
def newAsk (p : Peer) (s : State) : Ask :=
  let raised := (takeWith s p.addr).map Record.id
  let ceiling := match takeWith s p.addr with
    | some r => maxAmount - r.amount
    | none => maxAmount
  let amount := min (min (need s) p.spare) ceiling
  { supplier := p.addr
    requestId := s.engine.nextRequest
    raised := raised
    amount := amount
    minimum := min (cfg s).minGrant amount
    state := .queued s.engine.nextRef
    holds := 0 }

/-- Starts an ask to a candidate (R41, R44). -/
def startAsk (p : Peer) (s : State) : State :=
  let a := newAsk p s
  let t := enqueue (askFrame a s.engine.nextRef) s
  { t with
    engine.asks := t.engine.asks ++ [a]
    engine.nextRequest := if t.engine.nextRequest = 15 then 1 else t.engine.nextRequest + 1
    engine.nextRef := t.engine.nextRef + 1 }

/-- Starts new asks while R42 allows. -/
def startAsks : Nat → State → State
  | 0, s => s
  | n + 1, s =>
    if mayAsk s then
      match bestCandidate s with
      | some p => startAsks n (startAsk p s)
      | none => s
    else s

/-! ### The engine's turn -/

/-- The engine's and the builder's end of a happening in JOINED and LEAVING. Places freed in a full queue go first to the
due DECLARE (R33); otherwise the notices decided stand ahead of a DECLARE that falls due in the happening (DESIGN CHOICE,
log entry 7). Places that the happening itself freed are given out here too, after all its notices are decided (DESIGN
CHOICE, log entry 36). -/
def engineSettle (pre s : State) : State :=
  if s.control.station.speaks then
    let s1 := trimExcess (planRecalls pre s)
    let s2 := if pre.link.normal.length < normalPlaces then s1 else builderTurn pre s1
    let s3 := checkDrain (placeNotices s2)
    let s4 := builderTurn pre s3
    startAsks askPlaces (requeueAsks askPlaces s4)
  else s

/-! ### The limit and the path (R110 to R114) -/

/-- The start allowance of an unpowered station. -/
def allowance (s : State) : Nat := if s.control.unpowered then (cfg s).startAllowance else 0

/-- The role's limit is an output limit (R111). -/
def Role.supplies : Role → Bool
  | .supplier => true
  | .drainingSupply _ _ => true
  | _ => false

/-- The limit is a draw limit (R111). -/
def isDrawLimit (s : State) : Bool :=
  match s.control.station with
  | .loading | .configFault => false
  | .listening | .offline | .duplicate => true
  | .joined | .leaving => decide (s.path.state = .tripped) || !s.engine.role.supplies

/-- The limit (R111). -/
def limitOf (s : State) : Nat :=
  match s.control.station with
  | .loading | .configFault => 0
  | .listening | .offline | .duplicate => allowance s
  | .joined | .leaving =>
    if s.path.state = .tripped then allowance s
    else
      match s.engine.role with
      | .taker | .drainingTake _ _ => allowance s + held s
      | .idle => allowance s
      | .supplier | .drainingSupply _ _ => committed s

/-- The path state under a limit (R110). -/
def movePath (s : State) : State :=
  let l := limitOf s
  let p := { s.path with limit := l }
  match s.path.state with
  | .opened =>
    if 0 < l then { s with path := { p with state := .ramping, rampEnd := some (s.now + ms (cfg s).rampTime) } }
    else { s with path := { p with rampEnd := none } }
  | .ramping => if l = 0 then { s with path := { p with state := .opened, rampEnd := none } } else { s with path := p }
  | .closed => if l = 0 then { s with path := { p with state := .opened, rampEnd := none } } else { s with path := p }
  | .tripped => { s with path := p }

/-- Overdraw is evaluated (R113). -/
def overdrawWatched (s : State) : Bool :=
  decide (s.path.state = .closed) && s.control.station.speaks && isDrawLimit s

/-- The overdraw timer after the comparison of R113. -/
def moveTimer (s : State) : State :=
  if overdrawWatched s && decide (s.path.limit + (cfg s).overdrawMargin < s.path.pathSense) then
    { s with path.overdraw := some (s.path.overdraw.getD s.now) }
  else { s with path.overdraw := none }

/-- Opens the shed window when the happening lowered the draw limit by a shed cause (R114). `mid` is the state the
happening's own effect left, before the end-of-happening rules; `shed` says whether a fall of held in that effect is a
shed cause. A window that opens over a timer already past the shed grace leaves the path CLOSED, for its TRIP to come (R115;
DESIGN CHOICE, log entry 32). -/
def openShed (shed : Bool) (pre mid s : State) : State :=
  if shed && decide (pre.control.station = mid.control.station) && decide (held mid < held pre)
      && decide (s.path.limit < pre.path.limit) && isDrawLimit s then
    { s with path.shedEnd := some (s.now + ms (cfg s).shedGrace) }
  else s

/-- The Path Controller's end of a happening (R112). -/
def pathSettle (shed : Bool) (pre mid s : State) : State := moveTimer (openShed shed pre mid (movePath s))

/-! ### Events and outputs -/

/-- STATE_CHANGED and ROLE_CHANGED for the happening (R93, R156). -/
def changeEvents (pre s : State) : State :=
  let t := if pre.control.station = s.control.station then s else setEvent .stateChanged s
  if pre.engine.role.value = s.engine.role.value then t else setEvent .roleChanged t

/-- The outputs INT, PATH_EN and LIMIT_OUT (R109, R169). -/
def drive (s : State) : State :=
  { s with
    host.int := intLevel s.host
    path.pathEn := decide (s.path.state = .ramping ∨ s.path.state = .closed)
    path.limitOut := min fullScale s.path.limit }

/-- The end of a happening: `pre` is the state it found, `mid` the state its own effect left. In LOADING, which a reset
also leads to, only the outputs follow. -/
def settle (shed : Bool) (pre mid : State) : State :=
  if mid.control.station = .loading then drive mid
  else drive (changeEvents pre (pathSettle shed pre mid (engineSettle pre mid)))

/-- A whole happening: dt bit times pass, the effect takes place, the end-of-happening rules act. While RESET is asserted
the station is held in its initial state and only time passes (R145). -/
def happen (shed : Bool) (dt : Nat) (effect : State → State) (s : State) : State :=
  let pre := advance dt s
  if pre.control.resetHeld then pre else settle shed pre (effect pre)

end Sys2Proof.Machine
end

