-- ==== Sys2Proof/Machine/LifeCycle.lean ====
section
/-! DEFINITION. Changes of the station state: reset, the load, listening, joining, OFFLINE and DUPLICATE (chapter 9). -/

namespace Sys2Proof.Machine

/-- Every block returns to its initial state with the cause given (R145). The clock, the waiting commands, the model's
counter of free values and the levels on the pins are not the station's to reset. LOADING begins at once, unless RESET is asserted. -/
def resetStation (cause : ResetCause) (straps : BitVec 2) (s : State) : State where
  control := Control.initial cause s.now
  engine := Engine.initial
  peers := []
  link := Link.initial
  path := PathCtl.initial s.path.pathSense s.path.railSense
  host := { HostPort.initial straps with draws := s.host.draws }
  now := s.now
  pending := s.pending

/-- The station is held in its initial state: the RESET input is asserted and no memory read runs (R145). The port's
address holds until the release (R157). -/
def holdReset (address : BitVec 7) (s : State) : State :=
  { s with
    control.resetHeld := true
    control.loadStart := none
    host.address := address }

/-- The link holds no frame and its receiver is off (R126, R142); the counters stay (R143). -/
def clearLink (s : State) : State := { s with link := { Link.initial with counters := s.link.counters } }

/-- The rail is no longer watched: the timer stops and the detector is armed (R119). -/
def stopRailWatch (s : State) : State := { s with path.railTimer := none, path.armed := true }

/-- A reading on RAIL_SENSE (R119): at or above the threshold the rail-low timer stops and the detector is armed; below
it, in JOINED with the detector armed, the timer runs. -/
def readRail (v : Nat) (s : State) : State :=
  let t := { s with path.railSense := v }
  if s.control.station ≠ .joined then t
  else if (cfg s).alertThreshold ≤ v then { t with path.railTimer := none, path.armed := true }
  else if s.path.armed && s.path.railTimer.isNone then { t with path.railTimer := some s.now }
  else t

/-- Entry to LISTENING (R150): the receiver is switched on and the listen window begins. -/
def enterListening (s : State) : State :=
  { s with
    control.station := .listening
    control.listenEnd := some (s.now + ms (max (20 * (cfg s).period) minListen))
    link.idleSince := some s.now }

/-- Entry to CONFIG_FAULT (R149); SUPPLY_PRESENT is followed from the end of LOADING (R62, R163). -/
def enterConfigFault (code : FaultCode) (supply : Bool) (s : State) : State :=
  { s with
    control.station := .configFault
    control.fault := code
    control.loadStart := none
    engine.supply := supply }

/-- Adoption of a good load (R148). -/
def adoptLoad (c : StationConfig) (supply : Bool) (s : State) : State :=
  enterListening { s with
    control.config := some c
    control.loadStart := none
    control.unpowered := !supply
    engine.demand := c.demand
    engine.capacity := c.capacity
    engine.supply := supply }

/-- Entry to JOINED (R151): the incarnation, the start role, the rail watch, the first DECLARE. -/
def enterJoined (incarnation : Byte) (rail : Nat) (s : State) : State :=
  let t := clearBuilder { s with
    control.station := .joined
    control.incarnation := incarnation
    control.listenEnd := none
    engine.role := startRole s }
  let u := readRail rail { t with engine.declareDue := true }
  match u.host.long with
  | some ⟨.rejoin, _⟩ => completeLong .done u
  | _ => u

/-- Entry to OFFLINE (R153). A LEAVE in progress completes DONE; a LEAVE that abandoned a rejoin completes in its own
rule. -/
def enterOffline (s : State) : State :=
  let t := clearBuilder (stopRailWatch (clearLink { s with
    control.station := .offline
    control.listenEnd := none
    path.state := if s.path.state = .tripped then .opened else s.path.state }))
  let u := (t.peers.map Peer.addr).foldl (fun x a => losePeer a x) t
  match u.host.long with
  | some ⟨.leave, _⟩ => completeLong .done u
  | _ => u

/-- Entry to DUPLICATE (R155). -/
def enterDuplicate (s : State) : State :=
  let t := dropRecords (fun _ => true) s
  let u := clearBuilder (stopRailWatch (clearLink { t with
    control.station := .duplicate
    control.listenEnd := none
    engine.asks := []
    engine.role := .idle }))
  setEvent .addressConflict (completeLong .aborted u)

end Sys2Proof.Machine
end

