-- ==== Sys2Proof/Machine/LinkOps.lean ====
section
/-! DEFINITION. The operations of the Sideband Link: attempts, outcomes and their reports, pre-emption, reception and the
inbound queue (chapter 8). -/

namespace Sys2Proof.Machine

/-! ### Frames in transmission -/

/-- An ALERT is the only urgent frame (R140). -/
def OutFrame.isUrgent (f : OutFrame) : Bool :=
  match f.body with
  | .fixed (.alert _) => true
  | _ => false

/-- A directed frame: its destination is a station (11.1). -/
def OutFrame.isDirected (f : OutFrame) : Bool := f.dst != 0

/-- The bytes the attempt puts on the line (11.1). -/
def lineBytes (s : State) (c : Current) : List Byte := (Frame.mk c.frame.dst (ownAddress s) c.seq c.content).bytes

/-- The bytes of the ACK being driven (R136): the acknowledged frame's source as destination, this station as source. -/
def ackBytes (s : State) (a : AckOut) : List Byte := (Frame.mk a.dst (ownAddress s) a.seq .ack).bytes

/-- The end of the transmission of an attempt begun at `start`. -/
def Current.txEnd (c : Current) (start : Nat) : Nat := start + frameTime c.content

/-- The current frame with the start of its attempt, while it has an attempt in progress. -/
def attemptOf (s : State) : Option (Current × Nat) :=
  match s.link.current with
  | some c =>
    match c.phase with
    | .attempting t => some (c, t)
    | .backoff => none
  | none => none

/-- When the station's own driving of the line ends, if it drives or drove it in the attempt in progress. -/
def driveEnd (s : State) : Nat :=
  match s.link.ackOut, attemptOf s with
  | some a, _ => a.start + ackLength
  | none, some (c, t) => c.txEnd t
  | none, none => 0

/-- Begins the next attempt of a frame, which is or becomes the current frame (R128, R131): the content is composed, and
a DECLARE attempt clears the pending change (R29, R32). The place that the frame left in the normal queue is given out after
that: an owed notice that takes it and removes its CLOSING record leaves a change pending (DESIGN CHOICE, log entry 37). -/
def beginAttempt (c : Current) (s : State) : State :=
  let content := composeBody c.frame.body s
  let t := { s with
    link.current := some { c with
      attempts := c.attempts + 1
      phase := .attempting s.now
      content := content }
    link.idleSince := none }
  if c.frame.isDeclare then { t with engine.changePending := false } else t

/-- A queued frame becomes current and begins its first attempt; a directed frame takes the next outbound sequence of its
destination's entry (R128, R137). -/
def makeCurrent (f : OutFrame) (s : State) : State :=
  let seq := if f.isDirected then ((findPeer s f.dst).map Peer.nextOut).getD 0 else 0
  let t := if f.isDirected then updatePeer f.dst (fun p => { p with nextOut := p.nextOut + 1 }) s else s
  beginAttempt ⟨f, seq, 0, 0, .backoff, .ack⟩ t

/-! ### Outcomes (R132) -/

/-- The supplier-side record a GRANT's outcome concerns (R67): PROVISIONAL or RAISING at the GRANT's revision. -/
def grantRecord (s : State) (id : Nat) (v : Revision) : Option Record :=
  (findSupply s id).filter fun r => r.isOpenGrant && r.revision == v

/-- Confirms a grant: the record becomes ACTIVE as it stands (R67, R69). -/
def confirmGrant (r : Record) (s : State) : State := putRecord { r with state := .active } s

/-- Undoes a grant that was given up (R68). -/
def undoGrant (r : Record) (s : State) : State :=
  match r.state with
  | .provisional => dropRecord r.supplier r.id s
  | .raising a v => putRecord { r with amount := a, revision := v, state := .active } s
  | _ => s

/-- The QUEUED ask that refers to an ASK frame (R45). -/
def askOfFrame (s : State) (ref : Nat) : Option Ask :=
  s.engine.asks.find? fun a => match a.state with
    | .queued n => n == ref
    | _ => false

/-- The outcome of a DECLARE: the declaration instant (R31), and OFFLINE after the final one (R153). -/
def declareOutcome (final : Bool) (s : State) : State :=
  let t := { s with engine.lastInstant := some s.now }
  if final then enterOffline t else t

/-- The owner's part of a SENT report (R132). -/
def ownerSent (f : OutFrame) (s : State) : State :=
  match f.body with
  | .declare final => declareOutcome final s
  | .fixed (.ask ..) =>
    (match askOfFrame s f.ref with
    | some a => updateAsk a.supplier (fun b => { b with state := .asked (s.now + ms (cfg s).askTimeout) }) s
    | none => s)
  | .fixed (.grant _ id _ v) =>
    (match grantRecord s id v with
    | some r => confirmGrant r s
    | none => s)
  | .fixed (.alert _) => { s with path.lastAlert := some s.now }
  | .fixed _ => s

/-- The owner's part of a GIVEN_UP report (R132). -/
def ownerGivenUp (f : OutFrame) (s : State) : State :=
  match f.body with
  | .declare final => declareOutcome final s
  | .fixed (.ask ..) =>
    (match askOfFrame s f.ref with
    | some a => failAsk a.supplier s
    | none => s)
  | .fixed (.grant _ id _ v) =>
    (match grantRecord s id v with
    | some r => undoGrant r s
    | none => s)
  | .fixed _ => s

/-- A frame is SENT: the counter, and the report to the owner (R129, R130, R132). -/
def reportSent (f : OutFrame) (s : State) : State :=
  ownerSent f { s with
    link.current := none
    link.counters.framesSent := bump s.link.counters.framesSent }

/-- A frame is GIVEN_UP: the counter, LINK_GIVEUP for a directed frame, and the report to the owner (R131, R132). -/
def reportGivenUp (f : OutFrame) (s : State) : State :=
  let t := { s with link.counters.giveUps := bump s.link.counters.giveUps }
  ownerGivenUp f (if f.isDirected then setEvent .linkGiveup t else t)

/-- A normal current frame in backoff is pre-empted while the urgent queue holds a frame (R133). -/
def preempt (s : State) : State :=
  match s.link.current with
  | some c =>
    if c.phase = .backoff ∧ c.frame.isUrgent = false ∧ s.link.urgent ≠ [] then
      { s with link.current := none, link.preempted := some c }
    else s
  | none => s

/-- The attempt in progress fails (R131): backoff, or GIVEN_UP at the eighth failure. -/
def attemptFails (s : State) : State :=
  match attemptOf s with
  | none => s
  | some (c, _) =>
    if c.failures + 1 < maxAttempts then
      preempt { s with link.current := some { c with failures := c.failures + 1, phase := .backoff } }
    else reportGivenUp c.frame { s with link.current := none }

/-- Queues an ALERT: refused by a full urgent queue it is dropped and counted; placed, it pre-empts a normal frame in
backoff (R120, R133, R140). -/
def queueAlert (rail : Nat) (s : State) : State :=
  if s.link.urgent.length < urgentPlaces then
    preempt { s with link.urgent := s.link.urgent ++ [⟨0, .fixed (.alert rail), 0⟩] }
  else { s with link.counters.alertsDropped := bump s.link.counters.alertsDropped }

/-! ### The candidate (R128) -/

/-- What the link waits to send: the urgent head, else the pre-empted frame, else the normal head. -/
inductive Candidate
  | urgent (f : OutFrame) (rest : List OutFrame)
  | preempted (c : Current)
  | normal (f : OutFrame) (rest : List OutFrame)
deriving DecidableEq, Repr

/-- The link's candidate, while it holds no current frame. -/
def candidate (s : State) : Option Candidate :=
  if s.link.current.isSome then none
  else
    match s.link.urgent, s.link.preempted, s.link.normal with
    | f :: rest, _, _ => some (.urgent f rest)
    | [], some c, _ => some (.preempted c)
    | [], none, f :: rest => some (.normal f rest)
    | [], none, [] => none

/-- The quiet gap of the candidate with draw k (R127, R133). -/
def Candidate.gap (k : Nat) : Candidate → Nat
  | .urgent _ _ => urgentGap
  | .preempted _ => normalGap k
  | .normal _ _ => normalGap k

/-- The candidate's quiet gap has ended (R128, R131, R133). A directed frame from a queue whose destination has no entry
is given up without an attempt; the entry is looked for when the gap ends, not when the frame became the candidate (DESIGN
CHOICE, log entry 31). -/
def takeCandidate (c : Candidate) (s : State) : State :=
  match c with
  | .urgent f rest => makeCurrent f { s with link.urgent := rest }
  | .preempted p => beginAttempt p { s with link.preempted := none }
  | .normal f rest =>
    let t := { s with link.normal := rest }
    if f.isDirected && !knownPeer t f.dst then reportGivenUp f t else makeCurrent f t

/-! ### Reception (R134, R135) -/

/-- The time at which a reception ends: not before its bits can have passed since the station last drove the line in the
attempt in progress (R126). -/
def receptionEnd (r : Reception) (s : State) : State :=
  if driveEnd s = 0 then s else reach (driveEnd s + r.time) s

/-- A reception ending now began in the acknowledgement window of the directed attempt in progress (R130). -/
def inWindow (r : Reception) (s : State) : Bool :=
  match attemptOf s with
  | some (c, t) =>
    c.frame.isDirected && decide (c.txEnd t ≤ s.now - r.time) && decide (s.now - r.time ≤ c.txEnd t + ackWindow)
  | none => false

/-- The line is idle from now on (R127). -/
def lineIdle (s : State) : State := { s with link.idleSince := some s.now }

/-- Hearing a peer (R20). -/
def hear (src : Nat) (s : State) : State :=
  updatePeer src (fun p => { p with lastHeard := s.now, liveness := .active }) s

/-- The entry a DECLARE creates (R22). -/
def newPeer (src : Nat) (d : Declare) (s : State) : Peer where
  addr := src
  incarnation := d.incarnation
  role := (RoleValue.ofCode d.role).getD .idle
  unpowered := d.unpowered
  sheddable := d.sheddable
  period := d.period
  capacity := d.capacity
  spare := d.spare
  unmet := d.unmet
  liveness := .active
  lastHeard := s.now
  nextOut := 0
  lastIn := none
  skip := false

/-- Creates an entry from a DECLARE (R22). -/
def createPeer (src : Nat) (d : Declare) (s : State) : State :=
  setEvent .peerJoined { s with peers := insertPeer (newPeer src d s) s.peers }

/-- Refreshes an entry from a DECLARE; the sequence state stays (R23). -/
def refreshPeer (src : Nat) (d : Declare) (s : State) : State :=
  updatePeer src (fun p => { newPeer src d s with nextOut := p.nextOut, lastIn := p.lastIn }) s

/-- The first stage of a DECLARE in range (2.3, R22 to R25). -/
def declareStage (src : Nat) (d : Declare) (s : State) : State :=
  match findPeer s src with
  | none => if d.leaving then s else createPeer src d s
  | some p =>
    if d.leaving then losePeer src s
    else if p.incarnation = d.incarnation then refreshPeer src d s
    else createPeer src d (losePeer src s)

/-- Places a valid broadcast in the inbound queue in JOINED and LEAVING; when it is full the frame is dropped and counted
(R141). -/
def deliverBroadcast (f : Frame) (s : State) : State :=
  if s.control.station.speaks then
    if s.link.inbound.length < inboundPlaces then { s with link.inbound := s.link.inbound ++ [f] }
    else { s with link.counters.inboundDrops := bump s.link.counters.inboundDrops }
  else s

/-- Acknowledgement and delivery of a directed frame (R136, R138). -/
def deliverDirected (f : Frame) (s : State) : State :=
  if f.dst = ownAddress s ∧ s.control.station.speaks = true then
    match findPeer s f.src with
    | none => s
    | some p =>
      if s.link.inbound.length < inboundPlaces then
        let t := { s with link.ackDue := some ⟨f.src, f.seq, s.now + ackDelay⟩ }
        if p.lastIn = some f.seq then t
        else updatePeer f.src (fun q => { q with lastIn := some f.seq })
          { t with link.inbound := s.link.inbound ++ [f] }
      else { s with link.counters.inboundDrops := bump s.link.counters.inboundDrops }
  else s

/-- The ACK acknowledges the attempt in progress: its destination, source and sequence decide (R130), whether or not its
source still has an entry (R131, R135; R21 denies an unknown source the hearing only; DEDUCED, log entry 9). -/
def ackMatches (f : Frame) (s : State) : Bool :=
  match attemptOf s with
  | some (c, _) => f.dst == ownAddress s && f.src == c.frame.dst && f.seq == c.seq
  | none => false

/-- An ACK ends the attempt in progress with SENT (R130). -/
def ackArrives (s : State) : State :=
  match s.link.current with
  | some c => reportSent c.frame s
  | none => s

/-- A reception while the receiver is on (R126): `apply` is what the frame or the damage does, `fails` says that the
attempt in whose window it began fails. A reception is taken first, the attempt's failure after it (log entry 10). -/
def onReception (r : Reception) (apply : State → State) (fails : Bool) (s : State) : State :=
  let t := lineIdle (receptionEnd r s)
  if fails && inWindow r t then attemptFails (apply t) else apply t

/-- A valid frame (R135, steps 1 and 2): an address conflict, or hearing its source and then the rest. -/
def onFrame (f : Frame) (rest : State → State) (s : State) : State :=
  if f.src = ownAddress s then enterDuplicate s else rest (hear f.src s)

end Sys2Proof.Machine
end

