-- ==== Sys2Proof/Machine/HostOps.lean ====
section
/-! DEFINITION. The Host Port: taking requests (R160 to R167), the window (R157, R158, R176) and its transactions
(R175, R176). -/

namespace Sys2Proof.Machine

/-! ### The requests, each judged in the happening that takes it -/

/-- The value of a SET_DEMAND or SET_CAPACITY: argument bytes 0 and 1 (R176). -/
def Request.value (q : Request) : Nat := be16 q.arg0 q.arg1

/-- SET_DEMAND (R38, R162). -/
def takeSetDemand (q : Request) (s : State) : State :=
  if fullScale < q.value then finish q .refusedArg s
  else if s.control.station ≠ .joined then finish q .refusedState s
  else finish q .done { s with engine.demand := q.value }

/-- SET_CAPACITY (R61, R162). -/
def takeSetCapacity (q : Request) (s : State) : State :=
  if fullScale < q.value then finish q .refusedArg s
  else if s.control.station ≠ .joined then finish q .refusedState s
  else finish q .done { s with engine.capacity := q.value }

/-- A drain leaving TAKER begins (R84). A place that the asks' withdrawal frees is given out at the end of the happening, so
that a record closed in step 2 may go before a newer CLOSING record that owed a notice already (DESIGN CHOICE, log entry
36). -/
def beginDrainTake (target : Target) (purpose : Purpose) (s : State) : State :=
  let t := closeAllTake (removeAllAsks s)
  { t with engine.role := .drainingTake target purpose }

/-- A drain leaving SUPPLIER begins (R85). -/
def beginDrainSupply (target : Target) (purpose : Purpose) (s : State) : State :=
  let t := recallAll s
  { t with engine.role := .drainingSupply target purpose }

/-- The request becomes the long request in progress (R166). -/
def becomeLong (kind : LongKind) (q : Request) (s : State) : State := { s with host.long := some ⟨kind, q.tag⟩ }

/-- SET_ROLE during a drain (R88, R89): `left` is the role being left, `again` the draining role with a new target and
purpose. The refusal by the supply test goes before the retargeting, where the drain is already toward SUPPLIER too (DESIGN
CHOICE, log entry 35). -/
def overtakeDrain (q : Request) (target left : Target) (again : Target → Purpose → Role) (s : State) : State :=
  if target = left then
    finish q .done (completeLong .aborted { s with engine.role := left.role })
  else if target = .supplier ∧ supplyTestFails s = true then finish q .refusedState s
  else
    let t := completeLong .aborted { s with engine.role := again target (.setRole q.tag) }
    becomeLong .setRole q t

/-- SET_ROLE taken in JOINED with a target in range (R83, R88, R89). -/
def changeRole (q : Request) (target : Target) (s : State) : State :=
  match s.engine.role, target with
  | .idle, .idle => finish q .done s
  | .taker, .taker => finish q .done s
  | .supplier, .supplier => finish q .done s
  | .idle, .taker => finish q .done { s with engine.role := .taker }
  | .idle, .supplier =>
    if supplyTestFails s then finish q .refusedState s else finish q .done { s with engine.role := .supplier }
  | .taker, .idle => becomeLong .setRole q (beginDrainTake .idle (.setRole q.tag) s)
  | .taker, .supplier =>
    if supplyTestFails s then finish q .refusedState s
    else becomeLong .setRole q (beginDrainTake .supplier (.setRole q.tag) s)
  | .supplier, .idle => becomeLong .setRole q (beginDrainSupply .idle (.setRole q.tag) s)
  | .supplier, .taker => becomeLong .setRole q (beginDrainSupply .taker (.setRole q.tag) s)
  | .drainingTake _ _, _ => overtakeDrain q target .taker .drainingTake s
  | .drainingSupply _ _, _ => overtakeDrain q target .supplier .drainingSupply s

/-- SET_ROLE (R83). -/
def takeSetRole (q : Request) (s : State) : State :=
  match Target.ofCode q.arg0.toNat with
  | none => finish q .refusedArg s
  | some target => if s.control.station ≠ .joined then finish q .refusedState s else changeRole q target s

/-- LEAVE taken in JOINED: the station enters LEAVING and drains toward IDLE (R90, R152). -/
def beginLeaving (q : Request) (s : State) : State :=
  let t := stopRailWatch { s with control.station := .leaving }
  match t.engine.role with
  | .idle => becomeLong .leave q (dueFinal t)
  | .taker => becomeLong .leave q (beginDrainTake .idle .leaving t)
  | .supplier => becomeLong .leave q (beginDrainSupply .idle .leaving t)
  | .drainingTake _ _ =>
    becomeLong .leave q (completeLong .aborted { t with engine.role := .drainingTake .idle .leaving })
  | .drainingSupply _ _ =>
    becomeLong .leave q (completeLong .aborted { t with engine.role := .drainingSupply .idle .leaving })

/-- A REJOIN is in progress. -/
def rejoining (s : State) : Bool := s.host.long.any fun l => l.kind = .rejoin

/-- LEAVE (R152, R154). -/
def takeLeave (q : Request) (s : State) : State :=
  match s.control.station with
  | .joined => beginLeaving q s
  | .listening =>
    if rejoining s then finish q .done (enterOffline (completeLong .aborted s)) else finish q .refusedState s
  | _ => finish q .refusedState s

/-- REJOIN (R154). -/
def takeRejoin (q : Request) (s : State) : State :=
  if s.control.station = .offline then enterListening (becomeLong .rejoin q s) else finish q .refusedState s

/-- RECLOSE (R117); the end of the happening takes the path on to RAMPING where the limit allows. -/
def takeReclose (q : Request) (s : State) : State :=
  if s.path.state = .tripped then
    finish q .done { s with path.state := .opened, path.overdraw := none, path.shedEnd := none }
  else finish q .refusedState s

/-- CLEAR_UNPOWERED (R163). -/
def takeClearUnpowered (q : Request) (s : State) : State :=
  if s.engine.supply then finish q .done { s with control.unpowered := false } else finish q .refusedState s

/-- READ_PEERS (R164). -/
def takeReadPeers (q : Request) (s : State) : State :=
  complete q.tag q.kind .done (s.peers.flatMap Peer.bytes) s

/-- READ_CONTRACTS (R164). -/
def takeReadContracts (q : Request) (s : State) : State :=
  complete q.tag q.kind .done (s.engine.table.flatMap Record.bytes) s

/-! ### Taking (R160) -/

/-- The code of RESTART (R176). -/
def restartCode : Byte := 10

/-- A free place in the Result Queue, reservations counted. -/
def resultRoom (s : State) : Bool := decide (s.host.results.length + s.host.reserved < resultPlaces)

/-- The request that the Host Port takes next, if it may take one now. -/
def takeable (s : State) : Option Request :=
  match s.host.requests with
  | [] => none
  | q :: _ =>
    if s.control.station ≠ .loading ∧ (resultRoom s = true ∨ q.kind = restartCode) then some q else none

/-- Judges a taken request other than RESTART by its kind (R160, R176). -/
def judge (q : Request) (s : State) : State :=
  match q.kind.toNat with
  | 1 => takeSetDemand q s
  | 2 => takeSetCapacity q s
  | 3 => takeSetRole q s
  | 4 => takeLeave q s
  | 5 => takeRejoin q s
  | 6 => takeReclose q s
  | 7 => takeClearUnpowered q s
  | 8 => takeReadPeers q s
  | 9 => takeReadContracts q s
  | _ => finish q .refusedArg s

/-- The request leaves the Request Queue, and a result place is reserved for it. -/
def removeHead (s : State) : State :=
  { s with
    host.requests := s.host.requests.drop 1
    host.reserved := s.host.reserved + 1 }

/-- Takes the head request, where it waited for what this happening brings (R160). A RESTART does not wait for a result
place, and it is taken in its own row, which samples the straps (DESIGN CHOICE, log entry 11). -/
def takeHead (s : State) : State :=
  match takeable s with
  | some q => if q.kind = restartCode then s else judge q (removeHead s)
  | none => s

/-- RESTART (R165), with the straps sampled at this reset (R157). -/
def takeRestart (straps : BitVec 2) (s : State) : State :=
  match takeable s with
  | some q => if q.kind = restartCode then resetStation .command straps s else s
  | none => s

/-- Takes the head request if it may be taken and its kind meets a test, which RESTART does not: the happening of one row
of the table. -/
def takeOf (p : Nat → Bool) (s : State) : State :=
  match takeable s with
  | some q => if p q.kind.toNat then judge q (removeHead s) else s
  | none => s

/-! ### Commit and pop -/

/-- A write to the commit location (R159). -/
def commitStaged (s : State) : State :=
  if s.host.requests.length < requestPlaces then { s with host.requests := s.host.requests ++ [s.host.staged] }
  else setEvent .requestLost s

/-- A write to the pop location (R161): the oldest result goes. -/
def popResult (s : State) : State := { s with host.results := s.host.results.drop 1 }

/-- A pop frees the result place that the head request waits for (R160). -/
def popServes (s : State) : Bool := (takeable s).isNone && (takeable (popResult s)).isSome

/-! ### Write transactions (R175, R176) -/

/-- The location pointer after a byte: it wraps from 0x184 to 0 (R175). -/
def nextPointer (p : BitVec 16) : BitVec 16 := if p.toNat = windowLast then 0 else p + 1

/-- A byte in the upper half of a two-byte region. -/
def upper (b : Byte) : BitVec 16 := b.setWidth 16 <<< 8

/-- A byte in the lower half of a two-byte region. -/
def lower (b : Byte) : BitVec 16 := b.setWidth 16

/-- One byte written at a location; `masked` says that an earlier byte of the transaction wrote the mask, whose unwritten
bytes are taken as 0 (R176). Other locations are read-only or outside the window (R157). -/
def writeByte (a : Nat) (b : Byte) (masked : Bool) (s : State) : State :=
  match a with
  | 0x010 => clearFlags (upper b) s
  | 0x011 => clearFlags (lower b) s
  | 0x012 => { s with host.mask := ((if masked then s.host.mask &&& 0x00FF else 0) ||| upper b) &&& eventBits }
  | 0x013 => { s with host.mask := ((if masked then s.host.mask &&& 0xFF00 else 0) ||| lower b) &&& eventBits }
  | 0x014 => { s with host.staged.kind := b }
  | 0x015 => { s with host.staged.tag := b }
  | 0x016 => { s with host.staged.arg0 := b }
  | 0x017 => { s with host.staged.arg1 := b }
  | 0x018 => { s with host.staged.arg2 := b }
  | 0x019 => { s with host.staged.arg3 := b }
  | 0x01A => commitStaged s
  | 0x01B => popResult s
  | _ => s

/-- The bytes of a transaction after the pointer, in the order written. `served` says that a byte popped a result whose place
the head request waited for: that request is taken in this happening, one alone, when all bytes are applied (R160, R176;
DESIGN CHOICE, log entry 11). -/
def writeBytes : List Byte → Bool → Bool → State → State
  | [], _, served, s => if served then takeHead s else s
  | b :: bs, masked, served, s =>
    let a := s.host.pointer.toNat
    let t := writeByte a b masked s
    writeBytes bs (masked || a == 0x012 || a == 0x013) (served || (a == 0x01B && popServes s))
      { t with host.pointer := nextPointer s.host.pointer }

/-- A write transaction: two bytes set the location pointer, the rest are written from it (R175). After one byte alone the
pointer is a free value (log entry 13). -/
def writeTransaction (bytes : List Byte) (s : State) : State :=
  match bytes with
  | [] => s
  | [_] => { s with host.pointer := Config.shortPointer s.host.draws, host.draws := s.host.draws + 1 }
  | h :: l :: rest => writeBytes rest false false { s with host.pointer := upper h ||| lower l }

/-! ### The window (R158, R176) -/

/-- STATUS, locations 0x000 to 0x00F. The spec gives 0 for none to the kind of the long request only; its tag reads 0 too
then (DESIGN CHOICE, log entry 33). -/
def statusBytes (s : State) : List Byte :=
  [s.control.station.byte, put8 s.engine.role.value.code,
    (match s.engine.role.target with
      | some t => put8 t.code
      | none => 0xFF),
    s.path.state.byte, bitByte s.control.unpowered 0 ||| bitByte s.engine.supply 1,
    s.control.fault.bytes.1, s.control.fault.bytes.2, s.control.resetCause.byte]
    ++ put16 s.engine.demand ++ put16 s.engine.capacity
    ++ [put8 s.host.requests.length, put8 s.host.results.length,
      (s.host.long.map fun l => l.kind.byte).getD 0, (s.host.long.map LongRequest.tag).getD 0]

/-- The two bytes of a 16-bit region. -/
def regionBytes (v : BitVec 16) : List Byte := put16 v.toNat

/-- The staging region. -/
def Request.bytes (q : Request) : List Byte := [q.kind, q.tag, q.arg0, q.arg1, q.arg2, q.arg3]

/-- The link counters, locations 0x020 to 0x02B. -/
def Counters.bytes (c : Counters) : List Byte :=
  put16 c.framesSent ++ put16 c.collisions ++ put16 c.giveUps ++ put16 c.crcErrors ++ put16 c.inboundDrops
    ++ put16 c.alertsDropped

/-- The result head: tag, kind, code, data length, then the data (R161). -/
def resultBytes (s : State) : List Byte :=
  match s.host.results with
  | [] => [0, 0, 0, 0, 0]
  | r :: _ => [r.tag, r.kind, r.code.byte] ++ put16 r.data.length ++ r.data

/-- The byte read at a location, for the draw number given (R176). The commit and pop locations are write-only: what they
read is a free value (log entry 14). -/
def windowByte (s : State) (draw a : Nat) : Byte :=
  if a < 0x010 then (statusBytes s).getD a 0
  else if a < 0x012 then (regionBytes s.host.flags).getD (a - 0x010) 0
  else if a < 0x014 then (regionBytes s.host.mask).getD (a - 0x012) 0
  else if a < 0x01A then s.host.staged.bytes.getD (a - 0x014) 0
  else if a < 0x01C then Config.writeOnlyByte draw
  else if a < 0x020 then 0
  else if a < 0x02C then s.link.counters.bytes.getD (a - 0x020) 0
  else if a < 0x040 then 0
  else if a ≤ windowLast then (resultBytes s).getD (a - 0x040) 0
  else 0

/-- The bytes a read of n bytes returns, from a pointer and a draw number. -/
def readBytes (s : State) : Nat → Nat → BitVec 16 → List Byte
  | 0, _, _ => []
  | n + 1, draw, p => windowByte s draw p.toNat :: readBytes s n (draw + 1) (nextPointer p)

/-- The pointer after n bytes. -/
def pointerAfter : Nat → BitVec 16 → BitVec 16
  | 0, p => p
  | n + 1, p => pointerAfter n (nextPointer p)

/-- A read of n bytes from the location pointer (R157, R175); every byte is that of one state. -/
def readTransaction (n : Nat) (s : State) : State :=
  if n = 0 ∨ s.control.resetHeld = true then s
  else
    { s with
      host.out := readBytes s n s.host.draws s.host.pointer
      host.pointer := pointerAfter n s.host.pointer
      host.draws := s.host.draws + n }

end Sys2Proof.Machine
end

