-- ==== Sys2Proof/Machine/LifeCycleCommands.lean ====
section
/-! DEFINITION. The commands of reset, load and joining (R145 to R151). -/

namespace Sys2Proof.Machine

/-- What every command answers: a next state. -/
abbrev Answer := Host.Outcome State Fault Refusal

/-- Power-on reset (R145); while the RESET input is asserted the station stays held. -/
def powerOn (straps : BitVec 2) (s : State) : State :=
  let t := resetStation .powerOn straps s
  if s.control.resetHeld then holdReset s.host.address t else t

/-- POWER_ON_RESET (R145). -/
def execPowerOnReset (dt : Nat) (straps : BitVec 2) (s : State) : Answer := .next (powerOn straps (advance dt s))

/-- Pin reset (R145). -/
def pinResetNow (s : State) : State := holdReset s.host.address (resetStation .pin s.host.straps s)

/-- PIN_RESET (R145). -/
def execPinReset (dt : Nat) (s : State) : Answer := .next (pinResetNow (advance dt s))

/-- The release of RESET (R145, R157): the straps are sampled and the memory read begins. -/
def releaseReset (straps : BitVec 2) (s : State) : State :=
  if s.control.resetHeld then resetStation s.control.resetCause straps s else s

/-- RESET_RELEASE (R145). -/
def execResetRelease (dt : Nat) (straps : BitVec 2) (s : State) : Answer :=
  .next (releaseReset straps (advance dt s))

/-- The end of a load with the outcome of its checks; LOADING has ended, so a waiting head request is taken in this
happening (R148, R149, R160). -/
def endLoad (outcome : LoadOutcome) (supply : Bool) (s : State) : State :=
  takeHead (match outcome with
    | .fault code => enterConfigFault code supply s
    | .adopt c => adoptLoad c supply s)

/-- The memory read of LOADING ends (R146): in time it is checked, later it has failed. -/
def loadDone (image : Option (List Byte)) (supply : Bool) (s : State) : State :=
  match s.control.station, s.control.loadStart with
  | .loading, some t => endLoad (if t + memoryReadTime < s.now then .fault .noMemory else checkImage image) supply s
  | _, _ => s

/-- LOAD_COMPLETE (R146). -/
def execLoadComplete (dt : Nat) (image : Option (List Byte)) (supply : Bool) (s : State) : Answer :=
  .next (happen false dt (loadDone image supply) s)

/-- The memory read of LOADING has not completed in time (R146). -/
def loadTimedOut (supply : Bool) (s : State) : State :=
  match s.control.station, s.control.loadStart with
  | .loading, some t => endLoad (.fault .noMemory) supply (reach (t + memoryReadTime) s)
  | _, _ => s

/-- MEMORY_TIMEOUT (R146). -/
def execMemoryTimeout (dt : Nat) (supply : Bool) (s : State) : Answer :=
  .next (happen false dt (loadTimedOut supply) s)

/-- The listen timer ends (R151). -/
def listenDone (incarnation : Byte) (rail : Nat) (s : State) : State :=
  match s.control.station, s.control.listenEnd with
  | .listening, some t => enterJoined incarnation rail (reach t s)
  | _, _ => s

/-- LISTEN_TIMER_END (R151). -/
def execListenTimerEnd (dt : Nat) (incarnation : Byte) (rail : Nat) (s : State) : Answer :=
  .next (happen false dt (listenDone incarnation rail) s)

end Sys2Proof.Machine
end

