-- ==== Sys2Proof/Machine/Consumption.lean ====
section
/-! DEFINITION. The Negotiation Engine consumes the head of the inbound queue (R26, R141, R174): asks, answers, notices,
declarations and alerts (chapters 3, 4, 6, 7). -/

namespace Sys2Proof.Machine

/-! ### Consumption -/

/-- The frame passes the source test of R26 and the range test of R174 at the moment of consumption. -/
def accepted (f : Frame) (s : State) : Bool :=
  match f.body with
  | .alert _ => true
  | .declare d => (findPeer s f.src).any fun p => p.incarnation == d.incarnation
  | _ => knownPeer s f.src && f.body.inRange

/-- Consumes the head of the inbound queue when its kind code is the one given: in JOINED and LEAVING, while the normal
queue has a free place (R141). A frame not accepted is discarded without effect. -/
def consume (kind : Nat) (act : Frame → State → State) (s : State) : State :=
  if s.control.station.speaks && normalRoom s then
    match s.link.inbound with
    | f :: rest =>
      if f.body.kind = kind then
        let t := { s with link.inbound := rest }
        if accepted f t then act f t else t
      else s
    | [] => s
  else s

/-! ### CONSUME_ASK (R63 to R66) -/

/-- DECLINE reasons (11.1). -/
inductive Reason
  | noBudget | wrongRole | draining | tableFull
deriving DecidableEq, Repr

/-- The code of a DECLINE reason (11.1). -/
def Reason.code : Reason → Nat
  | .noBudget => 1
  | .wrongRole => 2
  | .draining => 3
  | .tableFull => 4

/-- The supplier-side record an ASK from a taker concerns, if any (R63). -/
def concernedRecord (taker id : Nat) (s : State) : Option Record :=
  match (findSupply s id).filter fun r => r.counterpart == taker && !r.isClosing with
  | some r => some r
  | none => s.engine.table.find? fun r => r.isSupply && r.counterpart == taker && !r.isClosing

/-- A contract id that a supplier-side record carries (R11). -/
def idInUse (s : State) (i : Nat) : Bool := s.engine.table.any fun r => r.isSupply && r.id == i

/-- The next candidate id: 255 is followed by 1 (R11). -/
def nextId (i : Nat) : Nat := if i = 255 then 1 else i + 1

/-- Allocates a contract id: the first candidate from the counter on that is not in use (R11); 17 candidates suffice. -/
def allocateId (s : State) : Nat → Nat → Nat
  | 0, i => i
  | n + 1, i => if idInUse s i then allocateId s n (nextId i) else i

/-- Grants a new contract (R65). -/
def grantNew (taker rid asked : Nat) (s : State) : State :=
  let amount := min (min asked (free s).toNat) maxAmount
  let id := allocateId s 17 s.engine.nextContract
  let t := addRecord ⟨ownAddress s, id, .supply, taker, amount, 0, .provisional, none, 0⟩ s
  answer taker (.grant rid id amount 0) { t with engine.nextContract := nextId id }

/-- Grants a raise (R66). -/
def grantRaise (taker rid asked : Nat) (r : Record) (s : State) : State :=
  let amount := r.amount + min (min asked (free s).toNat) (maxAmount - r.amount)
  let t := putRecord { r with
    amount := amount
    revision := r.revision + 1
    state := .raising r.amount r.revision } s
  answer taker (.grant rid r.id amount (r.revision + 1)) t

/-- What R64 answers an ASK with. -/
inductive AskAnswer
  | decline (reason : Reason)
  | hold
  | grant
deriving DecidableEq, Repr

/-- The ordered tests of R64, with the record concerned and the ASK's minimum. -/
def judgeAsk (r : Option Record) (minimum : Nat) (s : State) : AskAnswer :=
  let ceiling := match r with
    | some x => maxAmount - x.amount
    | none => maxAmount
  let short := decide (free s < minimum)
  let recalled := r.any Record.isRecalling
  match s.engine.role with
  | .supplier =>
    if r.isNone ∧ contractPlaces ≤ s.engine.table.length then .decline .tableFull
    else if r.any Record.isOpenGrant ∨ (short = true ∧ minimum ≤ ceiling ∧ recalled = false
        ∧ s.engine.table.any (fun x => x.isSupply && x.isOpenGrant) = true) then .hold
    else if short = true ∨ ceiling < minimum ∨ recalled = true then .decline .noBudget
    else .grant
  | .drainingSupply _ _ => .decline .draining
  | _ => .decline .wrongRole

/-- Answers an ASK (R63 to R66). -/
def askConsumed (f : Frame) (s : State) : State :=
  match f.body with
  | .ask rid asked minimum id =>
    let r := concernedRecord f.src id s
    (match judgeAsk r minimum s with
    | .decline reason => answer f.src (.decline rid reason.code) s
    | .hold => answer f.src (.hold rid (cfg s).holdTime) s
    | .grant =>
      (match r with
      | some x => grantRaise f.src rid asked x s
      | none => grantNew f.src rid asked s))
  | _ => s

/-- CONSUME_ASK (R64). -/
def execConsumeAsk (dt : Nat) (s : State) : Answer := .next (happen false dt (consume 2 askConsumed) s)

/-! ### CONSUME_GRANT (R53, R54) -/

/-- A late GRANT (R54). -/
def lateGrant (src id : Nat) (v : Revision) (s : State) : State :=
  match findTake s src id with
  | none => answer src (.release src id) s
  | some r =>
    if r.isActive then
      let w := newest v r.revision + 1
      answer src (.trim id r.amount w) (putRecord { r with revision := w } s)
    else s

/-- A matching GRANT to a raise (R53). -/
def grantToRaise (src raised id amount : Nat) (v : Revision) (s : State) : State :=
  if id = raised then
    match findTake s src id with
    | some r =>
      if newer v r.revision then putRecord { r with amount := amount, revision := v } (removeAsk src s)
      else lateGrant src id v (failAsk src s)
    | none => lateGrant src id v (failAsk src s)
  else answer src (.release src id) (failAsk src s)

/-- A GRANT (R53, R54). -/
def grantConsumed (f : Frame) (s : State) : State :=
  match f.body with
  | .grant rid id amount v =>
    (match matchingAsk s f.src rid with
    | none => lateGrant f.src id v s
    | some a =>
      (match a.raised with
      | none => addRecord ⟨f.src, id, .take, f.src, amount, v, .active, none, 0⟩ (removeAsk f.src s)
      | some i => grantToRaise f.src i id amount v s))
  | _ => s

/-- CONSUME_GRANT (R53). -/
def execConsumeGrant (dt : Nat) (s : State) : Answer := .next (happen false dt (consume 3 grantConsumed) s)

/-! ### CONSUME_HOLD, CONSUME_DECLINE (R48, R50, R51) -/

/-- A HOLD (R48): the ask enters or stays in HELD until the carried hold time, or is removed at the fourth. -/
def holdConsumed (f : Frame) (s : State) : State :=
  match f.body with
  | .hold rid time =>
    (match matchingAsk s f.src rid with
    | none => s
    | some a =>
      if a.holds < maxHolds then
        updateAsk f.src (fun b => { b with state := .held (s.now + ms time), holds := b.holds + 1 }) (releaseFrame a s)
      else failAsk f.src s)
  | _ => s

/-- CONSUME_HOLD (R48). -/
def execConsumeHold (dt : Nat) (s : State) : Answer := .next (happen false dt (consume 4 holdConsumed) s)

/-- A DECLINE (R50). -/
def declineConsumed (f : Frame) (s : State) : State :=
  match f.body with
  | .decline rid _ =>
    (match matchingAsk s f.src rid with
    | none => s
    | some _ => failAsk f.src s)
  | _ => s

/-- CONSUME_DECLINE (R50). -/
def execConsumeDecline (dt : Nat) (s : State) : Answer := .next (happen false dt (consume 5 declineConsumed) s)

/-! ### CONSUME_TRIM, CONSUME_YIELD (R74, R78, R79) -/

/-- The supplier-side record a taker's notice names (R74, R77, R78). -/
def namedSupply (taker id : Nat) (s : State) : Option Record :=
  (findSupply s id).filter fun r => r.counterpart == taker

/-- A taker's reduction of a contract to an amount at a revision (R74, R78, R79). -/
def reduction (taker id a : Nat) (v : Revision) (s : State) : State :=
  match namedSupply taker id s with
  | none => if a = 0 then s else answer taker (.release (ownAddress s) id) s
  | some r =>
    match r.state with
    | .closing => s
    | .recalling _ _ _ => if resolves a v r then resolveRecall a v r s else s
    | _ =>
      if newerOrEqual v r.revision = true ∧ a < r.amount then
        if a = 0 then dropRecord r.supplier r.id s
        else putRecord { r with amount := a, revision := v, state := .active } s
      else s

/-- A TRIM (R74, R78, R79). -/
def trimConsumed (f : Frame) (s : State) : State :=
  match f.body with
  | .trim id a v => reduction f.src id a v s
  | _ => s

/-- CONSUME_TRIM (R78). -/
def execConsumeTrim (dt : Nat) (s : State) : Answer := .next (happen false dt (consume 6 trimConsumed) s)

/-- A YIELD resolves a recall, or is handled as a TRIM of the same amount and revision (R74, R78). -/
def yieldConsumed (f : Frame) (s : State) : State :=
  match f.body with
  | .yield id a v => reduction f.src id a v s
  | _ => s

/-- CONSUME_YIELD (R74). -/
def execConsumeYield (dt : Nat) (s : State) : Answer := .next (happen false dt (consume 8 yieldConsumed) s)

/-! ### CONSUME_RECALL (R56, R57) -/

/-- A RECALL of an ACTIVE taker-side record (R56). The YIELD is the one answer of the consumption, so it takes its place
before any other frame the happening decides (R141). -/
def recallActive (target : Nat) (v : Revision) (r : Record) (s : State) : State :=
  placeNotices (
    if newerOrEqual v r.revision then
      if target = 0 then closeTake .yield { r with revision := v } s
      else putRecord { r with amount := min r.amount target, revision := v, owed := some .yield } s
    else putRecord { r with owed := some .yield } s)

/-- A RECALL (R56, R57). -/
def recallConsumed (f : Frame) (s : State) : State :=
  match f.body with
  | .recall id target v =>
    (match findTake s f.src id with
    | none => answer f.src (.release f.src id) s
    | some r => if r.isActive then recallActive target v r s else s)
  | _ => s

/-- CONSUME_RECALL (R56). -/
def execConsumeRecall (dt : Nat) (s : State) : Answer := .next (happen true dt (consume 7 recallConsumed) s)

/-! ### CONSUME_RELEASE (R58, R77) -/

/-- A RELEASE (R58, R77). -/
def releaseConsumed (f : Frame) (s : State) : State :=
  match f.body with
  | .release supplier id =>
    if supplier = f.src then
      (match findTake s supplier id with
      | some r => removeRaise r (dropRecord supplier id s)
      | none => s)
    else if supplier = ownAddress s then
      (match namedSupply f.src id s with
      | some _ => dropRecord supplier id s
      | none => s)
    else s
  | _ => s

/-- CONSUME_RELEASE (R58). -/
def execConsumeRelease (dt : Nat) (s : State) : Answer := .next (happen true dt (consume 9 releaseConsumed) s)

/-! ### CONSUME_DECLARE (R37, R69, R94 to R100) -/

/-- The declared role is a supplier role (R37). -/
def Declare.supplies (d : Declare) : Bool := d.role == RoleValue.supplier.code || d.role == RoleValue.drainingSupply.code

/-- The supplier address of every summary that names this station (R37). -/
def keySupplier (src : Nat) (d : Declare) (s : State) : Nat := if d.supplies then src else ownAddress s

/-- The relevant summaries: those that name this station (R37, R94). -/
def relevant (d : Declare) (s : State) : List Summary := d.summaries.filter fun m => m.counterpart == ownAddress s

/-- The first summary with a record's key (R94). -/
def summaryFor (src : Nat) (d : Declare) (s : State) (r : Record) : Option Summary :=
  if r.supplier = keySupplier src d s then (relevant d s).find? fun m => m.id == r.id else none

/-- Confirms one PROVISIONAL or RAISING record (R69). -/
def confirmOne (src : Nat) (d : Declare) (s : State) (r : Record) : State :=
  if r.isSupply && r.isOpenGrant && r.counterpart == src
      && (summaryFor src d s r).any (fun m => newerOrEqual m.revision r.revision) then confirmGrant r s
  else s

/-- Step 1 of R95: confirmation, when the peer declares a taker role. -/
def confirmStep (src : Nat) (d : Declare) (s : State) : State :=
  if d.supplies then s else s.engine.table.foldl (confirmOne src d) s

/-- The missing rule (R96). -/
def missOne (r : Record) (s : State) : State :=
  if 2 ≤ r.miss + 1 then removeRaise r (dropRecord r.supplier r.id s) else putRecord { r with miss := r.miss + 1 } s

/-- A listed supplier-side or taker-side ACTIVE record, settled against amount a and revision v (R98, R99); `raise` says
that a pending raise names it. -/
def settled (raise : Bool) (a : Nat) (v : Revision) (r : Record) : Record :=
  if newerOrEqual v r.revision = true ∧ a < r.amount then { r with amount := a, revision := v }
  else if newer v r.revision = true ∧ raise = false then { r with revision := v }
  else r

/-- Step 2 of R95 for one record. -/
def examineOne (src : Nat) (d : Declare) (s : State) (r : Record) : State :=
  if r.counterpart ≠ src ∨ r.isClosing = true ∨ r.isOpenGrant = true then s
  else
    match (summaryFor src d s r).filter fun m => !farApart m.revision r.revision with
    | none => missOne r s
    | some m =>
      let r0 := { r with miss := 0 }
      if r.isRecalling then
        if resolves m.amount m.revision r then resolveRecall m.amount m.revision r0 s else putRecord r0 s
      else putRecord (settled (raiseNames s r) m.amount m.revision r0) s

/-- Step 2 of R95. -/
def recordStep (src : Nat) (d : Declare) (s : State) : State := s.engine.table.foldl (examineOne src d) s

/-- The first unknown contract of a DECLARE, against the records held when it was consumed (R94, R97). -/
def unknownContract (src : Nat) (d : Declare) (s : State) : Option Summary :=
  (relevant d s).find? fun m =>
    !s.engine.table.any fun r => r.counterpart == src && r.hasKey (keySupplier src d s) m.id

/-- Reconciliation (R95); step 4 is the end of the happening. -/
def reconcile (src : Nat) (d : Declare) (s : State) : State :=
  let t := recordStep src d (confirmStep src d s)
  match unknownContract src d s with
  | some m => answer src (.release (keySupplier src d s) m.id) t
  | none => t

/-- A DECLARE (R94, R95). -/
def declareConsumed (f : Frame) (s : State) : State :=
  match f.body with
  | .declare d => reconcile f.src d s
  | _ => s

/-- CONSUME_DECLARE (R95). -/
def execConsumeDeclare (dt : Nat) (s : State) : Answer := .next (happen true dt (consume 1 declareConsumed) s)

/-! ### CONSUME_ALERT (R121) -/

/-- CONSUME_ALERT (R121, R122). -/
def execConsumeAlert (dt : Nat) (s : State) : Answer :=
  .next (happen true dt (consume 10 fun _ => alertEffect) s)

end Sys2Proof.Machine
end

