-- ==== Sys2Proof/Machine/HostCommands.lean ====
section
/-! DEFINITION. The host's writes (R157 to R161, R168, R169, R175, R176) and the taking of each kind of request (R160 to
R167). -/

namespace Sys2Proof.Machine

/-- COMMIT (R159): the transaction that writes the commit location. -/
def execCommit (dt : Nat) (value : Byte) (s : State) : Answer :=
  .next (happen false dt (writeTransaction [0x00, 0x1A, value]) s)

/-- POP (R161): the transaction that writes the pop location. -/
def execPop (dt : Nat) (value : Byte) (s : State) : Answer :=
  .next (happen false dt (writeTransaction [0x00, 0x1B, value]) s)

/-- EVENT_FLAG_CLEAR (R168): the transaction that writes the event flags region. -/
def execEventFlagClear (dt : Nat) (value : BitVec 16) (s : State) : Answer :=
  .next (happen false dt (writeTransaction (0x00 :: 0x10 :: regionBytes value)) s)

/-- EVENT_MASK_WRITE (R169): the transaction that writes the event mask. -/
def execEventMaskWrite (dt : Nat) (value : BitVec 16) (s : State) : Answer :=
  .next (happen false dt (writeTransaction (0x00 :: 0x12 :: regionBytes value)) s)

/-- The write part of a transaction, if it has one, as one happening (R157). -/
def hostWritePart (dt : Nat) (bytes : List Byte) (s : State) : State :=
  if bytes = [] then advance dt s else happen false dt (writeTransaction bytes) s

/-- HOST_WRITE (R175, R176): the write part, then the read part from the pointer as the write left it. -/
def execHostWrite (dt : Nat) (bytes : List Byte) (reads : Nat) (s : State) : Answer :=
  .next (readTransaction reads (hostWritePart dt bytes s))

/-- SET_DEMAND taken (R162). -/
def execSetDemand (dt : Nat) (s : State) : Answer := .next (happen false dt (takeOf (· == 1)) s)

/-- SET_CAPACITY taken (R162). -/
def execSetCapacity (dt : Nat) (s : State) : Answer := .next (happen false dt (takeOf (· == 2)) s)

/-- SET_ROLE taken (R83 to R89). -/
def execSetRole (dt : Nat) (s : State) : Answer := .next (happen false dt (takeOf (· == 3)) s)

/-- LEAVE taken (R90, R152, R154). -/
def execLeave (dt : Nat) (s : State) : Answer := .next (happen false dt (takeOf (· == 4)) s)

/-- REJOIN taken (R154). -/
def execRejoin (dt : Nat) (s : State) : Answer := .next (happen false dt (takeOf (· == 5)) s)

/-- RECLOSE taken (R117). -/
def execReclose (dt : Nat) (s : State) : Answer := .next (happen false dt (takeOf (· == 6)) s)

/-- CLEAR_UNPOWERED taken (R163). -/
def execClearUnpowered (dt : Nat) (s : State) : Answer := .next (happen false dt (takeOf (· == 7)) s)

/-- READ_PEERS taken (R164). -/
def execReadPeers (dt : Nat) (s : State) : Answer := .next (happen false dt (takeOf (· == 8)) s)

/-- READ_CONTRACTS taken (R164). -/
def execReadContracts (dt : Nat) (s : State) : Answer := .next (happen false dt (takeOf (· == 9)) s)

/-- RESTART taken (R165): the straps are sampled at this reset (R157). -/
def execRestart (sample : Sampling) (s : State) : Answer :=
  .next (happen false sample.dt (takeRestart sample.straps) s)

/-- A request of no request kind taken (R160). -/
def execUnknownRequest (dt : Nat) (s : State) : Answer :=
  .next (happen false dt (takeOf fun k => k == 0 || decide (10 < k)) s)

end Sys2Proof.Machine
end

