-- ==== Sys2Proof/Machine/PathCommands.lean ====
section
/-! DEFINITION. The power path: the ramp, overdraw and trip, the shed window, the rail and its alerts, the local supply
(R62, R110 to R122). -/

namespace Sys2Proof.Machine

/-- The ramp time ends (R110). -/
def rampEnds (s : State) : State :=
  match s.path.state, s.path.rampEnd with
  | .ramping, some t =>
    let u := reach t s
    { u with path.state := .closed, path.rampEnd := none }
  | _, _ => s

/-- RAMP_END (R110). -/
def execRampEnd (dt : Nat) (s : State) : Answer := .next (happen false dt rampEnds s)

/-- PATH_CURRENT_CHANGE (R113): the new reading is compared at the end of the happening. The reading is the world's and
changes in every state. -/
def execPathCurrentChange (dt : Nat) (current : Nat) (s : State) : Answer :=
  .next (happen false dt (fun t => t) { s with path.pathSense := current })

/-- The time at which an overdraw timer started at `start` reaches the grace in force (R114, R115): the shed grace if it
has run for it by the end of the open window, else the overdraw grace, not before that end. With a shed grace below the
overdraw grace, a timer that started in the happening that opened the window reaches the shed grace just as the window ends:
its TRIP, taken before the window's close, trips there (DESIGN CHOICE, log entry 34). -/
def tripTime (start : Nat) (s : State) : Nat :=
  match s.path.shedEnd with
  | none => start + ms (cfg s).overdrawGrace
  | some w =>
    if start + ms (cfg s).shedGrace ≤ w then start + ms (cfg s).shedGrace
    else max w (start + ms (cfg s).overdrawGrace)

/-- The overdraw timer reaches the grace in force (R115, R116). -/
def tripNow (s : State) : State :=
  match s.path.overdraw with
  | some start => tripPath (reach (tripTime start s) s)
  | none => s

/-- TRIP (R116). -/
def execTrip (dt : Nat) (s : State) : Answer := .next (happen false dt tripNow s)

/-- The shed window's end passes (R114); a running timer that has already run for the overdraw grace trips the path
(R115). -/
def windowEnds (s : State) : State :=
  match s.path.shedEnd with
  | some w =>
    let u := reach w s
    let t := { u with path.shedEnd := none }
    (match t.path.overdraw with
    | some start => if start + ms (cfg t).overdrawGrace ≤ t.now then tripPath t else t
    | none => t)
  | none => s

/-- SHED_WINDOW_CLOSE (R114). -/
def execShedWindowClose (dt : Nat) (s : State) : Answer := .next (happen false dt windowEnds s)

/-- RAIL_LOW (R119). The reading is the world's and changes in every state. -/
def execRailLow (dt : Nat) (rail : Nat) (s : State) : Answer :=
  .next (happen false dt (readRail rail) { s with path.railSense := rail })

/-- RAIL_RESTORED (R119). The reading is the world's and changes in every state. -/
def execRailRestored (dt : Nat) (rail : Nat) (s : State) : Answer :=
  .next (happen false dt (readRail rail) { s with path.railSense := rail })

/-- No ALERT has been seen on the line within the alert holdoff (R120). -/
def alertAllowed (s : State) : Bool :=
  match s.path.lastAlert with
  | some t => decide (t + ms (cfg s).alertHoldoff ≤ s.now)
  | none => true

/-- The rail-low timer has run for 2 ms (R119, R120, R121). -/
def brownoutNow (rail : Nat) (s : State) : State :=
  match s.path.railTimer with
  | some t =>
    if s.control.station = .joined ∧ rail < (cfg s).alertThreshold then
      let u := reach (t + railLowTime) s
      let w := { u with path.railTimer := none, path.armed := false, path.railSense := rail }
      alertEffect (if alertAllowed w then queueAlert rail w else w)
    else s
  | none => s

/-- BROWNOUT (R120). -/
def execBrownout (dt : Nat) (rail : Nat) (s : State) : Answer := .next (happen true dt (brownoutNow rail) s)

/-- The SUPPLY_PRESENT input as followed from the end of LOADING (R62). -/
def followSupply (present : Bool) (s : State) : State :=
  if s.control.station = .loading then s else { s with engine.supply := present }

/-- SUPPLY_LOSS (R62). -/
def execSupplyLoss (dt : Nat) (s : State) : Answer := .next (happen false dt (followSupply false) s)

/-- SUPPLY_RETURN (R62). -/
def execSupplyReturn (dt : Nat) (s : State) : Answer := .next (happen false dt (followSupply true) s)

end Sys2Proof.Machine
end

