-- ==== Sys2Proof/Machine/Reception.lean ====
section
/-! DEFINITION. Receptions (R20 to R25, R130, R134 to R139, R172, R173). A reception that the frame check makes something
else than the command says is no such happening. -/

namespace Sys2Proof.Machine

/-- A valid DECLARE (R135): range check, Peer Table, inbound queue. The frame goes on to the inbound queue unless it is out
of range, carries the leaving flag, or arrives in LISTENING (R22, R25, R173). -/
def declareReceived (f : Frame) (d : Declare) (s : State) : State :=
  if d.inRange then
    let t := declareStage f.src d s
    if d.leaving then t else deliverBroadcast f t
  else s

/-- The effect of a reception that is a valid DECLARE. -/
def receiveDeclareEffect (r : Reception) (s : State) : State :=
  match classify r with
  | .valid f =>
    (match f.body with
    | .declare d =>
      if s.control.station.hears then onReception r (onFrame f (declareReceived f d)) true s else s
    | _ => s)
  | _ => s

/-- RECEIVE_DECLARE (R22). -/
def execReceiveDeclare (dt : Nat) (r : Reception) (s : State) : Answer :=
  .next (happen true dt (receiveDeclareEffect r) s)

/-- A valid ALERT (R120, R135): the last-alert time, then the inbound queue. -/
def alertReceived (f : Frame) (s : State) : State := deliverBroadcast f { s with path.lastAlert := some s.now }

/-- The effect of a reception that is a valid ALERT. -/
def receiveAlertEffect (r : Reception) (s : State) : State :=
  match classify r with
  | .valid f =>
    (match f.body with
    | .alert _ => if s.control.station.hears then onReception r (onFrame f (alertReceived f)) true s else s
    | _ => s)
  | _ => s

/-- RECEIVE_ALERT (R120). -/
def execReceiveAlert (dt : Nat) (r : Reception) (s : State) : Answer :=
  .next (happen false dt (receiveAlertEffect r) s)

/-- The effect of a reception that is a valid ACK (R130): begun in the window it ends the attempt, with SENT when it
matches and as failed otherwise. -/
def receiveAckEffect (r : Reception) (s : State) : State :=
  match classify r with
  | .valid f =>
    (match f.body with
    | .ack =>
      if s.control.station.hears then
        let t := receptionEnd r s
        let matched := inWindow r t && ackMatches f t && f.src != ownAddress s
        onReception r (onFrame f fun u => if matched then ackArrives u else u) (!matched) s
      else s
    | _ => s)
  | _ => s

/-- RECEIVE_ACK (R130). -/
def execReceiveAck (dt : Nat) (r : Reception) (s : State) : Answer :=
  .next (happen false dt (receiveAckEffect r) s)

/-- The kinds of directed frame but ACK (11.1). -/
def Payload.isDirected : Payload → Bool
  | .declare _ => false
  | .alert _ => false
  | .ack => false
  | _ => true

/-- The effect of a reception that is a valid directed frame. -/
def receiveDirectedEffect (r : Reception) (s : State) : State :=
  match classify r with
  | .valid f =>
    if f.body.isDirected && s.control.station.hears then onReception r (onFrame f (deliverDirected f)) true s else s
  | _ => s

/-- RECEIVE_DIRECTED_FRAME (R136). -/
def execReceiveDirectedFrame (dt : Nat) (r : Reception) (s : State) : Answer :=
  .next (happen false dt (receiveDirectedEffect r) s)

/-- The effect of a malformed reception (R134). -/
def malformedEffect (r : Reception) (s : State) : State :=
  if classify r = .malformed ∧ s.control.station.hears = true then
    onReception r (fun t => { t with link.counters.crcErrors := bump t.link.counters.crcErrors }) true s
  else s

/-- MALFORMED_RECEPTION (R134). -/
def execMalformedReception (dt : Nat) (r : Reception) (s : State) : Answer :=
  .next (happen false dt (malformedEffect r) s)

/-- The effect of a fragment (R134): it ends the idle line, and an attempt in whose window it began fails. -/
def fragmentEffect (r : Reception) (s : State) : State :=
  if classify r = .fragment ∧ s.control.station.hears = true then onReception r (fun t => t) true s else s

/-- FRAGMENT (R134). -/
def execFragment (dt : Nat) (r : Reception) (s : State) : Answer := .next (happen false dt (fragmentEffect r) s)

end Sys2Proof.Machine
end

