-- ==== Sys2Proof/Machine/Timers.lean ====
section
/-! DEFINITION. The timers of the Peer Table, the engine and the builder (R27, R31, R32, R47, R49, R76, R123). A timer's
end is taken no earlier than its time: the clock is brought up to it (log entry 2). A timer that does not run has no
end. -/

namespace Sys2Proof.Machine

/-- An entry becomes SILENT after 2 declared periods (R27). -/
def peerFallsSilent (addr : Nat) (s : State) : State :=
  match findPeer s addr with
  | some p =>
    if s.control.station.hears = true ∧ p.liveness = .active then
      updatePeer addr (fun q => { q with liveness := .silent }) (reach (p.lastHeard + 2 * periodTime p.period) s)
    else s
  | none => s

/-- PEER_SILENT (R27). -/
def execPeerSilent (dt : Nat) (addr : Nat) (s : State) : Answer := .next (happen false dt (peerFallsSilent addr) s)

/-- An entry is lost after 3 declared periods (R27). -/
def peerIsLost (addr : Nat) (s : State) : State :=
  match findPeer s addr with
  | some p =>
    if s.control.station.hears then losePeer addr (reach (p.lastHeard + 3 * periodTime p.period) s) else s
  | none => s

/-- PEER_LOST_THRESHOLD (R27). -/
def execPeerLostThreshold (dt : Nat) (addr : Nat) (s : State) : Answer :=
  .next (happen true dt (peerIsLost addr) s)

/-- The deadline of an ASKED ask passes (R47). -/
def askTimesOut (supplier : Nat) (s : State) : State :=
  match (findAsk s supplier).map Ask.state with
  | some (.asked d) => failAsk supplier (reach d s)
  | _ => s

/-- ASK_TIMEOUT (R47). -/
def execAskTimeout (dt : Nat) (supplier : Nat) (s : State) : Answer :=
  .next (happen false dt (askTimesOut supplier) s)

/-- The hold of a HELD ask ends (R49): the ask waits for a place, which the end of the happening gives it if there is
one. -/
def holdEnds (supplier : Nat) (s : State) : State :=
  match (findAsk s supplier).map Ask.state with
  | some (.held d) => updateAsk supplier (fun a => { a with state := .waiting d }) (reach d s)
  | _ => s

/-- HOLD_END (R49). -/
def execHoldEnd (dt : Nat) (supplier : Nat) (s : State) : Answer := .next (happen false dt (holdEnds supplier) s)

/-- A recall deadline passes (R76): the record closes with RELEASE decided, which replaces an owed RECALL (R72). -/
def recallExpires (id : Nat) (s : State) : State :=
  match findSupply s id with
  | some r =>
    (match r.state with
    | .recalling _ _ d => putRecord { r with state := .closing, owed := some .release } (reach d s)
    | _ => s)
  | none => s

/-- RECALL_DEADLINE (R76). -/
def execRecallDeadline (dt : Nat) (id : Nat) (s : State) : Answer := .next (happen false dt (recallExpires id) s)

/-- No DECLARE waits, is current, or is due, and the final one has not become due (R31, R34). -/
def builderIdle (s : State) : Bool :=
  s.control.station.speaks && !s.engine.finalDue && !s.engine.declareDue && !declareInLink s

/-- The declaration period has passed since the last declaration instant (R31). -/
def periodPasses (s : State) : State :=
  match s.engine.lastInstant with
  | some t =>
    if builderIdle s then
      let u := reach (t + periodTime (cfg s).period) s
      { u with engine.declareDue := true }
    else s
  | none => s

/-- DECLARE_PERIOD_DUE (R31). -/
def execDeclarePeriodDue (dt : Nat) (s : State) : Answer := .next (happen false dt periodPasses s)

/-- The 50 ms spacing ends while a change is pending (R32); the builder's turn at the end of the happening finds the
DECLARE due. -/
def spacingEnds (s : State) : State :=
  match s.engine.lastInstant with
  | some t => if builderIdle s && s.engine.changePending then reach (t + declareSpacing) s else s
  | none => s

/-- DECLARE_SPACING_END (R32). -/
def execDeclareSpacingEnd (dt : Nat) (s : State) : Answer := .next (happen false dt spacingEnds s)

/-- The alert suspension's end time passes (R123). -/
def suspensionEnds (s : State) : State :=
  match s.engine.suspendEnd with
  | some t =>
    let u := reach t s
    { u with engine.suspendEnd := none }
  | none => s

/-- ALERT_SUSPENSION_END (R123). -/
def execAlertSuspensionEnd (dt : Nat) (s : State) : Answer := .next (happen false dt suspensionEnds s)

end Sys2Proof.Machine
end

