-- ==== Sys2Proof/Machine/Transmission.lean ====
section
/-! DEFINITION. Transmissions (R125 to R133, R136, R137). -/

namespace Sys2Proof.Machine

/-- The decided ACK begins, 6 bit times after the frame it acknowledges (R136). -/
def ackBegins (s : State) : State :=
  match s.link.ackDue with
  | some a =>
    let t := reach a.start s
    { t with
      link.ackDue := none
      link.ackOut := some { a with start := t.now }
      link.idleSince := none }
  | none => s

/-- ACK_TRANSMIT (R136). -/
def execAckTransmit (dt : Nat) (s : State) : Answer := .next (happen false dt ackBegins s)

/-- Counts a collision; the line is idle from when the drivers stop (R125, R143). -/
def countCollision (s : State) : State :=
  lineIdle { s with link.counters.collisions := bump s.link.counters.collisions }

/-- A collision of the ACK being driven, which ends it, or of the attempt being driven, which fails (R125). -/
def collide (s : State) : State :=
  match s.link.ackOut with
  | some _ => countCollision { s with link.ackOut := none }
  | none =>
    match attemptOf s with
    | some (c, t) => if s.now ≤ c.txEnd t then attemptFails (countCollision s) else s
    | none => s

/-- COLLISION (R125). -/
def execCollision (dt : Nat) (s : State) : Answer := .next (happen false dt collide s)

/-- The candidate's quiet gap ends (R128); normal gaps draw k from 0 to 15 (R127). -/
def quietGapEnds (k : Nat) (s : State) : State :=
  match candidate s, s.link.idleSince with
  | some c, some t =>
    if s.control.station.speaks = true ∧ k ≤ 15 then takeCandidate c (reach (t + c.gap k) s) else s
  | _, _ => s

/-- QUIET_GAP_END (R128). -/
def execQuietGapEnd (dt : Nat) (k : Nat) (s : State) : Answer := .next (happen false dt (quietGapEnds k) s)

/-- The backoff of the current frame ends (R131); an urgent retry draws k from 0 to 7, a normal one from 0 to 15 (R127). -/
def retryGapEnds (k : Nat) (s : State) : State :=
  match s.link.current, s.link.idleSince with
  | some c, some t =>
    if c.phase = .backoff ∧ k ≤ (if c.frame.isUrgent then 7 else 15) then
      beginAttempt c (reach (t + if c.frame.isUrgent then urgentRetryGap k else normalGap k) s)
    else s
  | _, _ => s

/-- RETRY_GAP_END (R131). -/
def execRetryGapEnd (dt : Nat) (k : Nat) (s : State) : Answer := .next (happen false dt (retryGapEnds k) s)

/-- A broadcast attempt is transmitted whole (R129). -/
def broadcastEnds (s : State) : State :=
  match attemptOf s with
  | some (c, t) =>
    if c.frame.isDirected then s
    else
      let u := reach (c.txEnd t) s
      reportSent c.frame { u with link.idleSince := some (c.txEnd t) }
  | none => s

/-- BROADCAST_TRANSMISSION_END (R129). -/
def execBroadcastTransmissionEnd (dt : Nat) (s : State) : Answer := .next (happen false dt broadcastEnds s)

/-- The acknowledgement window closes with no ACK begun (R130). -/
def windowCloses (s : State) : State :=
  match attemptOf s with
  | some (c, t) =>
    if c.frame.isDirected then
      let u := reach (c.txEnd t + ackWindow) s
      attemptFails { u with link.idleSince := some (c.txEnd t) }
    else s
  | none => s

/-- ACK_WINDOW_CLOSE (R130). -/
def execAckWindowClose (dt : Nat) (s : State) : Answer := .next (happen false dt windowCloses s)

end Sys2Proof.Machine
end

