-- ==== Sys2Proof/Machine/Dispatch.lean ====
section
/-! DEFINITION. The meaning of each command. -/

namespace Sys2Proof.Machine

def exec (i : Instr) (s : State) : Host.Outcome State Fault Refusal :=
  match i with
  | .powerOnReset dt straps => Sys2Proof.Machine.execPowerOnReset dt straps s
  | .pinReset dt => Sys2Proof.Machine.execPinReset dt s
  | .resetRelease dt straps => Sys2Proof.Machine.execResetRelease dt straps s
  | .loadComplete dt image supply => Sys2Proof.Machine.execLoadComplete dt image supply s
  | .memoryTimeout dt supply => Sys2Proof.Machine.execMemoryTimeout dt supply s
  | .listenTimerEnd dt incarnation rail => Sys2Proof.Machine.execListenTimerEnd dt incarnation rail s
  | .commit dt value => Sys2Proof.Machine.execCommit dt value s
  | .pop dt value => Sys2Proof.Machine.execPop dt value s
  | .eventFlagClear dt value => Sys2Proof.Machine.execEventFlagClear dt value s
  | .eventMaskWrite dt value => Sys2Proof.Machine.execEventMaskWrite dt value s
  | .hostWrite dt bytes reads => Sys2Proof.Machine.execHostWrite dt bytes reads s
  | .setDemand dt => Sys2Proof.Machine.execSetDemand dt s
  | .setCapacity dt => Sys2Proof.Machine.execSetCapacity dt s
  | .setRole dt => Sys2Proof.Machine.execSetRole dt s
  | .leave dt => Sys2Proof.Machine.execLeave dt s
  | .rejoin dt => Sys2Proof.Machine.execRejoin dt s
  | .reclose dt => Sys2Proof.Machine.execReclose dt s
  | .clearUnpowered dt => Sys2Proof.Machine.execClearUnpowered dt s
  | .readPeers dt => Sys2Proof.Machine.execReadPeers dt s
  | .readContracts dt => Sys2Proof.Machine.execReadContracts dt s
  | .restart sample => Sys2Proof.Machine.execRestart sample s
  | .unknownRequest dt => Sys2Proof.Machine.execUnknownRequest dt s
  | .receiveDeclare dt r => Sys2Proof.Machine.execReceiveDeclare dt r s
  | .receiveAlert dt r => Sys2Proof.Machine.execReceiveAlert dt r s
  | .receiveAck dt r => Sys2Proof.Machine.execReceiveAck dt r s
  | .receiveDirectedFrame dt r => Sys2Proof.Machine.execReceiveDirectedFrame dt r s
  | .malformedReception dt r => Sys2Proof.Machine.execMalformedReception dt r s
  | .fragment dt r => Sys2Proof.Machine.execFragment dt r s
  | .ackTransmit dt => Sys2Proof.Machine.execAckTransmit dt s
  | .collision dt => Sys2Proof.Machine.execCollision dt s
  | .quietGapEnd dt k => Sys2Proof.Machine.execQuietGapEnd dt k s
  | .retryGapEnd dt k => Sys2Proof.Machine.execRetryGapEnd dt k s
  | .broadcastTransmissionEnd dt => Sys2Proof.Machine.execBroadcastTransmissionEnd dt s
  | .ackWindowClose dt => Sys2Proof.Machine.execAckWindowClose dt s
  | .consumeAsk dt => Sys2Proof.Machine.execConsumeAsk dt s
  | .consumeGrant dt => Sys2Proof.Machine.execConsumeGrant dt s
  | .consumeHold dt => Sys2Proof.Machine.execConsumeHold dt s
  | .consumeDecline dt => Sys2Proof.Machine.execConsumeDecline dt s
  | .consumeTrim dt => Sys2Proof.Machine.execConsumeTrim dt s
  | .consumeRecall dt => Sys2Proof.Machine.execConsumeRecall dt s
  | .consumeYield dt => Sys2Proof.Machine.execConsumeYield dt s
  | .consumeRelease dt => Sys2Proof.Machine.execConsumeRelease dt s
  | .consumeDeclare dt => Sys2Proof.Machine.execConsumeDeclare dt s
  | .consumeAlert dt => Sys2Proof.Machine.execConsumeAlert dt s
  | .peerSilent dt addr => Sys2Proof.Machine.execPeerSilent dt addr s
  | .peerLostThreshold dt addr => Sys2Proof.Machine.execPeerLostThreshold dt addr s
  | .askTimeout dt supplier => Sys2Proof.Machine.execAskTimeout dt supplier s
  | .holdEnd dt supplier => Sys2Proof.Machine.execHoldEnd dt supplier s
  | .recallDeadline dt id => Sys2Proof.Machine.execRecallDeadline dt id s
  | .declarePeriodDue dt => Sys2Proof.Machine.execDeclarePeriodDue dt s
  | .declareSpacingEnd dt => Sys2Proof.Machine.execDeclareSpacingEnd dt s
  | .rampEnd dt => Sys2Proof.Machine.execRampEnd dt s
  | .pathCurrentChange dt current => Sys2Proof.Machine.execPathCurrentChange dt current s
  | .trip dt => Sys2Proof.Machine.execTrip dt s
  | .shedWindowClose dt => Sys2Proof.Machine.execShedWindowClose dt s
  | .railLow dt rail => Sys2Proof.Machine.execRailLow dt rail s
  | .railRestored dt rail => Sys2Proof.Machine.execRailRestored dt rail s
  | .brownout dt rail => Sys2Proof.Machine.execBrownout dt rail s
  | .alertSuspensionEnd dt => Sys2Proof.Machine.execAlertSuspensionEnd dt s
  | .supplyLoss dt => Sys2Proof.Machine.execSupplyLoss dt s
  | .supplyReturn dt => Sys2Proof.Machine.execSupplyReturn dt s

end Sys2Proof.Machine
end

