-- ==== Sys2Proof/WellFormed.lean ====
section
/-! DEFINITION. The ranges of the commands' operands, as the spec gives them. -/

namespace Sys2Proof

/-- A station address is an integer from 1 to 30 (00_scope.md, "Station addresses"). -/
def addressOk (a : Nat) : Bool := decide (1 ≤ a ∧ a ≤ 30)

/-- A contract id is 1 to 255 (R5). -/
def contractIdOk (i : Nat) : Bool := decide (1 ≤ i ∧ i ≤ 255)

/-- RAIL_SENSE is read in 10 mV units from 0 to 6000 (10.7). -/
def railOk (v : Nat) : Bool := decide (v ≤ 6000)

/-- PATH_SENSE is read in CU from 0 to 2047 (10.7). -/
def currentOk (i : Nat) : Bool := decide (i ≤ 2047)

/-- k is drawn from 0 to 15, or from 0 to 7 for an urgent retry (R127). -/
def drawOk (k : Nat) : Bool := decide (k ≤ 15)

/-- The read of the configuration memory is one transfer of 30 bytes (11.2). -/
def imageOk : Option (List Byte) → Bool
  | none => true
  | some bs => decide (bs.length = 30)

/-- The bits after the last whole byte of a reception make no further byte. -/
def receptionOk (r : Reception) : Bool := decide (r.bits < 8)

/-- The operands lie in the ranges the spec gives them. -/
def Instr.wellFormed : Instr → Bool
  | .powerOnReset _ _ => true
  | .pinReset _ => true
  | .resetRelease _ _ => true
  | .loadComplete _ image _ => imageOk image
  | .memoryTimeout _ _ => true
  | .listenTimerEnd _ _ rail => railOk rail
  | .commit _ _ => true
  | .pop _ _ => true
  | .eventFlagClear _ _ => true
  | .eventMaskWrite _ _ => true
  | .hostWrite _ _ _ => true
  | .setDemand _ => true
  | .setCapacity _ => true
  | .setRole _ => true
  | .leave _ => true
  | .rejoin _ => true
  | .reclose _ => true
  | .clearUnpowered _ => true
  | .readPeers _ => true
  | .readContracts _ => true
  | .restart _ => true
  | .unknownRequest _ => true
  | .receiveDeclare _ r => receptionOk r
  | .receiveAlert _ r => receptionOk r
  | .receiveAck _ r => receptionOk r
  | .receiveDirectedFrame _ r => receptionOk r
  | .malformedReception _ r => receptionOk r
  | .fragment _ r => receptionOk r
  | .ackTransmit _ => true
  | .collision _ => true
  | .quietGapEnd _ k => drawOk k
  | .retryGapEnd _ k => drawOk k
  | .broadcastTransmissionEnd _ => true
  | .ackWindowClose _ => true
  | .consumeAsk _ => true
  | .consumeGrant _ => true
  | .consumeHold _ => true
  | .consumeDecline _ => true
  | .consumeTrim _ => true
  | .consumeRecall _ => true
  | .consumeYield _ => true
  | .consumeRelease _ => true
  | .consumeDeclare _ => true
  | .consumeAlert _ => true
  | .peerSilent _ a => addressOk a
  | .peerLostThreshold _ a => addressOk a
  | .askTimeout _ a => addressOk a
  | .holdEnd _ a => addressOk a
  | .recallDeadline _ i => contractIdOk i
  | .declarePeriodDue _ => true
  | .declareSpacingEnd _ => true
  | .rampEnd _ => true
  | .pathCurrentChange _ i => currentOk i
  | .trip _ => true
  | .shedWindowClose _ => true
  | .railLow _ v => railOk v
  | .railRestored _ v => railOk v
  | .brownout _ v => railOk v
  | .alertSuspensionEnd _ => true
  | .supplyLoss _ => true
  | .supplyReturn _ => true

end Sys2Proof
end

