-- ==== Sys2Proof/Safety.lean ====
section
/-! DEFINITION. What holds of a sound station between happenings (the laws L4 to L12 of 00_scope.md, stated in the chapters
that own them), and what the end of a happening never changes. Claims are stated in these terms. -/

namespace Sys2Proof.Machine

/-! ### The frame of the end of a happening -/

/-- The events that the rules at the end of a happening may set: CONTRACTS_CHANGED, ROLE_CHANGED, RESULT_READY and
STATE_CHANGED. -/
def endBits : BitVec 16 := 0x048C

/-- The state with everything blanked that the rules at the end of a happening may write. Two states with the same
`outside` agree on all else: Station Control, the Peer Table, demand, capacity, the supply, the contract-id counter, the
suspension, the declaration instant, the urgent and inbound queues, the current frame, the ACKs, the link counters, the
rail watch and last-alert time, the Request Queue, the staging region, the mask, the pointer, the other events, the clock
and the waiting commands. -/
def outside (s : State) : State :=
  { s with
    engine := { s.engine with
      table := [], asks := [], role := .idle, declareDue := false, finalDue := false, changePending := false,
      nextRequest := 1, nextRef := 1 }
    link := { s.link with normal := [] }
    path := { s.path with
      state := .opened, limit := 0, rampEnd := none, overdraw := none, shedEnd := none, pathEn := false,
      limitOut := 0 }
    host := { s.host with
      flags := s.host.flags &&& ~~~endBits, results := [], reserved := 0, long := none, int := false } }

/-! ### Laws of the device -/

/-- INT, PATH_EN and LIMIT_OUT show the state: INT is asserted exactly while a flag is set whose enable is set (R169),
PATH_EN in RAMPING and CLOSED, and LIMIT_OUT is the limit up to full scale (R109). -/
def OutputsAgree (s : State) : Prop :=
  s.host.int = intLevel s.host
    ∧ s.path.pathEn = decide (s.path.state = .ramping ∨ s.path.state = .closed)
    ∧ s.path.limitOut = min fullScale s.path.limit

/-- The path is OPEN exactly when its limit is 0 and it is not TRIPPED (R110). -/
def PathOpenAtZero (s : State) : Prop := s.path.state = .opened ↔ s.path.limit = 0 ∧ s.path.state ≠ .tripped

/-- A frame that came in: a DECLARE is in range (R173). -/
def Frame.cameIn (f : Frame) : Bool :=
  match f.body with
  | .declare d => d.inRange
  | _ => true

/-- The queue bounds of Law L9 (R140), but for the Result Queue; at most one DECLARE waits (R31), and every DECLARE that came
in is in range (R173). -/
def QueuesBounded (s : State) : Prop :=
  (∀ f ∈ s.link.inbound, f.cameIn = true) ∧ s.link.urgent.length ≤ urgentPlaces ∧ s.link.normal.length ≤ normalPlaces
    ∧ s.link.inbound.length ≤ inboundPlaces ∧ s.host.requests.length ≤ requestPlaces
    ∧ (s.link.normal.filter OutFrame.isDeclare).length ≤ 1

/-- Outside JOINED and LEAVING the link holds no frame and no ACK (Law L8, R142). -/
def Silent (s : State) : Prop :=
  s.control.station.speaks = false →
    s.link.urgent = [] ∧ s.link.normal = [] ∧ s.link.current = none ∧ s.link.preempted = none
      ∧ s.link.inbound = [] ∧ s.link.ackDue = none ∧ s.link.ackOut = none

/-- Every contract record's counterpart has an entry in the Peer Table (Law L5, R19). -/
def PeersCover (s : State) : Prop := ∀ r ∈ s.engine.table, knownPeer s r.counterpart = true

/-- The Peer Table stands in ascending address order, so no two entries share an address (R18). -/
def PeersOrdered (s : State) : Prop := s.peers.Pairwise fun p q => p.addr < q.addr

/-- Every link counter lies in 0 to 65535 (R143). -/
def CountersInRange (s : State) : Prop :=
  s.link.counters.framesSent ≤ counterMax ∧ s.link.counters.collisions ≤ counterMax
    ∧ s.link.counters.giveUps ≤ counterMax ∧ s.link.counters.crcErrors ≤ counterMax
    ∧ s.link.counters.inboundDrops ≤ counterMax ∧ s.link.counters.alertsDropped ≤ counterMax

/-- The drain purpose of a draining role. -/
def Role.purpose : Role → Option Purpose
  | .drainingTake _ p => some p
  | .drainingSupply _ p => some p
  | _ => none

/-- The frame is the final DECLARE of leaving (R34). -/
def OutFrame.isFinal (f : OutFrame) : Bool := f.body = .declare true

/-- The frame carries a notice: TRIM, RECALL, YIELD or RELEASE (R12). -/
def OutFrame.isNotice (f : OutFrame) : Bool :=
  match f.body with
  | .fixed (.trim ..) => true
  | .fixed (.recall ..) => true
  | .fixed (.yield ..) => true
  | .fixed (.release ..) => true
  | _ => false

/-- The final DECLARE is due or stands in the link. -/
def finalAbout (s : State) : Bool :=
  s.engine.finalDue || s.link.normal.any OutFrame.isFinal || s.link.current.any (fun c => c.frame.isFinal)
    || s.link.preempted.any (fun c => c.frame.isFinal)

/-- Leaving: a drain that serves leaving runs only in LEAVING, toward IDLE (R90, R152), and the final DECLARE comes only
there, after the drain's end, in role IDLE (R34). -/
def LeavingAgrees (s : State) : Prop :=
  (s.engine.role.purpose = some .leaving → s.control.station = .leaving ∧ s.engine.role.target = some .idle)
    ∧ (finalAbout s = true → s.control.station = .leaving ∧ s.engine.role = .idle)

/-- The long request in progress is the one the station's state serves: a SET_ROLE exactly while a drain serves it, a LEAVE
exactly in LEAVING, a REJOIN only in LISTENING (R166). -/
def LongAgrees (s : State) : Prop :=
  match s.host.long with
  | none => s.control.station ≠ .leaving ∧ ∀ tag, s.engine.role.purpose ≠ some (.setRole tag)
  | some ⟨.setRole, _⟩ => s.control.station = .joined ∧ ∃ tag, s.engine.role.purpose = some (.setRole tag)
  | some ⟨.leave, _⟩ => s.control.station = .leaving ∧ ∀ tag, s.engine.role.purpose ≠ some (.setRole tag)
  | some ⟨.rejoin, _⟩ => s.control.station = .listening ∧ s.engine.role.purpose = none

/-- The Result Queue with its reserved places holds at most 4 (Law L9), and a place is reserved exactly for the long request
in progress (R160, R161). -/
def ResultPlaces (s : State) : Prop :=
  s.host.results.length + s.host.reserved ≤ resultPlaces
    ∧ s.host.reserved = (if s.host.long.isSome then 1 else 0)

/-- What the Host Port promises its host: the places of the results, with what the long request in progress serves. -/
def RequestsSound (s : State) : Prop := LeavingAgrees s ∧ LongAgrees s ∧ ResultPlaces s

/-- A taker role. -/
def Role.takes : Role → Bool
  | .taker => true
  | .drainingTake _ _ => true
  | _ => false

/-- Supplier-side records stand only in the supplier roles and taker-side records only in the taker roles (Law L4); a
taker-side record is ACTIVE or CLOSING (R7). -/
def SidesAgree (s : State) : Prop :=
  ∀ r ∈ s.engine.table,
    (r.side = .supply → s.engine.role.supplies = true)
      ∧ (r.side = .take → s.engine.role.takes = true ∧ (r.state = .active ∨ r.state = .closing))

/-- Pending asks stand only in role TAKER in JOINED, with the path not TRIPPED and asking not suspended by alert (Law L6,
R42). -/
def AsksAllowed (s : State) : Prop :=
  s.engine.asks ≠ [] →
    s.control.station = .joined ∧ s.engine.role = .taker ∧ s.path.state ≠ .tripped ∧ s.engine.suspendEnd = none

/-- While the path is TRIPPED every taker-side record is CLOSING (Law L12). -/
def TripClosed (s : State) : Prop :=
  s.path.state = .tripped → ∀ r ∈ s.engine.table, r.side = .take → r.state = .closing

/-- Roles are kept: Laws L4, L6, L7 and L12, with the role IDLE outside JOINED and LEAVING (R82). -/
def RolesSound (s : State) : Prop :=
  LeavingAgrees s ∧ SidesAgree s ∧ AsksAllowed s ∧ TripClosed s
    ∧ (s.control.station.speaks = false → s.engine.role = .idle)
    ∧ (s.control.unpowered = true → s.engine.role.supplies = false)

/-- The tables are in order. The Peer Table is in address order without the station's own address (R18). The Contract Table
has distinct keys (R2); its supplier-side records carry this station as supplier and its taker-side records their
counterpart (R1), at most one with each supplier (R2). The Pending Ask Table holds at most 4 asks, one to a supplier (R40);
an ask for a new contract goes to a supplier with which no record is held (R43), and its place in the Contract Table's 16 is
reserved (R9, R10). The id counter is a contract id (R11). -/
def TablesOrdered (s : State) : Prop :=
  PeersOrdered s ∧ (∀ p ∈ s.peers, p.addr ≠ ownAddress s)
    ∧ s.engine.table.Pairwise (fun q r => ¬ (q.supplier = r.supplier ∧ q.id = r.id))
    ∧ (∀ r ∈ s.engine.table, r.supplier = match r.side with | .supply => ownAddress s | .take => r.counterpart)
    ∧ s.engine.table.Pairwise (fun q r => q.side = .take → r.side = .take → q.supplier ≠ r.supplier)
    ∧ s.engine.asks.length ≤ askPlaces ∧ s.engine.asks.Pairwise (fun a b => a.supplier ≠ b.supplier)
    ∧ (∀ a ∈ s.engine.asks, a.raised = none → takeWith s a.supplier = none)
    ∧ s.engine.table.length + reservedPlaces s ≤ contractPlaces
    ∧ 1 ≤ s.engine.nextContract ∧ s.engine.nextContract ≤ 255

/-- A contract amount: 1 to 400 (R3). -/
def amountOk (a : Nat) : Bool := decide (1 ≤ a ∧ a ≤ maxAmount)

/-- The fields of a Peer Table entry are in the ranges of R18. -/
def Peer.inOrder (p : Peer) : Bool :=
  addressOk p.addr && decide (10 ≤ p.period ∧ p.period ≤ 200 ∧ p.capacity ≤ 2000 ∧ p.spare ≤ 2000 ∧ p.unmet ≤ 2000)

/-- The fields of a pending ask are in the ranges of R40. -/
def Ask.inOrder (a : Ask) : Bool :=
  addressOk a.supplier && a.raised.all contractIdOk && amountOk a.amount
    && decide (1 ≤ a.requestId ∧ a.requestId ≤ 15 ∧ 1 ≤ a.minimum ∧ a.minimum ≤ a.amount ∧ a.holds ≤ 3)

/-- The fields of a record are in the ranges of R5, a CLOSING record owes the notice whose placement removes it (R8), and a
RECALL is owed only in RECALLING (R13). -/
def Record.inOrder (r : Record) : Bool :=
  addressOk r.supplier && contractIdOk r.id && addressOk r.counterpart && amountOk r.amount && decide (r.miss ≤ 1)
    && (r.isRecalling || decide (r.owed ≠ some .recall))
    && (match r.state with
      | .raising a _ => amountOk a
      | .recalling t _ _ => decide (t ≤ maxAmount)
      | .closing => r.owed.isSome
      | _ => true)

/-- The tables are sound: in order themselves, with every entry, record and ask in order, the request-id counter from 1 to
15 (R41), and no notice left owed while the normal queue has a place (R12, R13). -/
def TablesSound (s : State) : Prop :=
  TablesOrdered s ∧ (∀ p ∈ s.peers, p.inOrder = true) ∧ (∀ r ∈ s.engine.table, r.inOrder = true)
    ∧ (∀ a ∈ s.engine.asks, a.inOrder = true)
    ∧ 1 ≤ s.engine.nextRequest ∧ s.engine.nextRequest ≤ 15
    ∧ (normalRoom s = true → ∀ r ∈ s.engine.table, r.owed = none)

/-- LOADING or CONFIG_FAULT: no image has been adopted. -/
def Station.unloaded : Station → Bool
  | .loading => true
  | .configFault => true
  | _ => false

/-- Before a good load the station rests: no configuration, no entry, no record, no ask, demand and capacity 0, role IDLE,
powered, the path OPEN at limit 0 with no timer (R145, R149). After one it holds a configuration, with a station address and
a minimum grant of at least 1 (R146, R147). A memory read runs only in LOADING, and RESET held asserted
holds the station in LOADING without one (R145, R146). -/
def RestsUnloaded (s : State) : Prop :=
  (s.control.station.unloaded = true →
      s.control.config = none ∧ s.control.unpowered = false ∧ s.peers = [] ∧ s.engine.table = [] ∧ s.engine.asks = []
        ∧ s.engine.role = .idle ∧ s.engine.demand = 0 ∧ s.engine.capacity = 0 ∧ s.path.state = .opened
        ∧ s.path.limit = 0 ∧ s.path.overdraw = none)
    ∧ (s.control.station.unloaded = false → s.control.config.isSome = true)
    ∧ (∀ c, s.control.config = some c → addressOk c.address = true ∧ 1 ≤ c.minGrant)
    ∧ (s.control.loadStart.isSome = true → s.control.station = .loading)
    ∧ (s.control.resetHeld = true → s.control.station = .loading ∧ s.control.loadStart = none)

/-! ### Frames that can be encoded -/

/-- A summary whose fields fit their bytes. -/
def Summary.fits (m : Summary) : Bool := decide (m.counterpart < 256 ∧ m.id < 256 ∧ m.amount < 65536)

/-- A payload whose fields fit their bytes, with at most 16 summaries (11.1). -/
def Payload.fits : Payload → Bool
  | .declare d =>
    decide (d.role < 256 ∧ d.period < 256 ∧ d.capacity < 65536 ∧ d.spare < 65536 ∧ d.unmet < 65536
      ∧ d.summaries.length ≤ contractPlaces) && d.summaries.all Summary.fits
  | .ask r a m i => decide (r < 256 ∧ a < 65536 ∧ m < 65536 ∧ i < 256)
  | .grant r i a _ => decide (r < 256 ∧ i < 256 ∧ a < 65536)
  | .hold r t => decide (r < 256 ∧ t < 65536)
  | .decline r c => decide (r < 256 ∧ c < 256)
  | .trim i a _ => decide (i < 256 ∧ a < 65536)
  | .recall i a _ => decide (i < 256 ∧ a < 65536)
  | .yield i a _ => decide (i < 256 ∧ a < 65536)
  | .release p i => decide (p < 256 ∧ i < 256)
  | .alert u => decide (u < 65536)
  | .ack => true

/-- A broadcast payload: DECLARE or ALERT (11.1). -/
def Payload.isBroadcast : Payload → Bool
  | .declare _ => true
  | .alert _ => true
  | _ => false

/-- A frame that can be encoded: fields that fit, a station as source, and broadcast or a station as destination as its kind
asks (11.1). -/
def Frame.fits (f : Frame) : Bool :=
  f.body.fits && addressOk f.src && (if f.body.isBroadcast then f.dst == 0 else addressOk f.dst)

/-! ### What the end of a happening decides -/

/-- Recall planning over the ACTIVE records in their order, against an uncovered excess: the records taken, each with its
target. The reduction is the lesser of amount and excess, and a target below the minimum grant is 0 (R71). -/
def recallPlan (minGrant : Nat) : Nat → List Record → List (Record × Nat)
  | _, [] => []
  | excess, r :: rest =>
    if excess = 0 then []
    else
      let left := r.amount - min r.amount excess
      let target := if left < minGrant then 0 else left
      (r, target) :: recallPlan minGrant (excess - (r.amount - target)) rest

/-- Trims over records in their order, against the excess of held over demand: a record passed over stands, one whose amount
is at most the excess is CLOSING with RELEASE decided, and the next loses the rest of the excess with TRIM decided (R55). -/
def trimPlan (passed : Record → Bool) : Nat → List Record → List Record
  | _, [] => []
  | excess, r :: rest =>
    if excess = 0 ∨ passed r = true then r :: trimPlan passed excess rest
    else if r.amount ≤ excess then
      { r with state := .closing, owed := some .release } :: trimPlan passed (excess - r.amount) rest
    else { r with amount := r.amount - excess, revision := r.revision + 1, owed := some .trim } :: rest

/-- The record in recall to a target, its amount and revision as they were, the target revision one newer, the deadline the
recall timeout from now (R71 steps 3 and 4). -/
def recallTo (s : State) (target : Nat) (r : Record) : Record :=
  { r with
    state := .recalling target (r.revision + 1) (s.now + 125 * (cfg s).recallTimeout)
    owed := some .recall }

/-- The Contract Table once the end of a happening has decided its recalls or trims and before it places a notice: `p` is the
state the happening found, `m` the state its own effect left. SUPPLIER plans its ACTIVE records, first those that the
happening made ACTIVE, then the others, each newest first (R71); DRAINING_SUPPLY recalls every ACTIVE record to 0 (R71, R86);
TAKER trims its ACTIVE records that no raise names, newest first (R55). -/
def decidedTable (p m : State) : List Record :=
  let table := m.engine.table
  let active (r : Record) : Bool := decide (r.side = .supply ∧ r.state = .active)
  match m.engine.role with
  | .supplier =>
    let was (r : Record) : Bool := p.engine.table.any fun q =>
      decide (q.supplier = r.supplier ∧ q.id = r.id ∧ q.side = .supply ∧ q.state = .active)
    let newest := (table.filter active).reverse
    let plan := recallPlan (cfg m).minGrant (uncovered m) (newest.filter (fun r => !was r) ++ newest.filter was)
    table.map fun r => match plan.find? fun x => x.1 = r with
      | some x => recallTo m x.2 r
      | none => r
  | .drainingSupply _ _ => table.map fun r => if active r = true then recallTo m 0 r else r
  | .taker =>
    (trimPlan (fun r => decide (r.side ≠ .take ∨ r.state ≠ .active) || raiseNames m r) (held m - m.engine.demand)
      table.reverse).reverse
  | _ => table

/-- The frame of the notice a record owes (R13). -/
def noticeOf (r : Record) : OutFrame :=
  ⟨r.counterpart, .fixed (match r.owed, r.state with
    | some .trim, _ => .trim r.id r.amount r.revision
    | some .recall, .recalling target v _ => .recall r.id target v
    | some .recall, _ => .recall r.id r.amount r.revision
    | some .yield, .closing => .yield r.id 0 r.revision
    | some .yield, _ => .yield r.id r.amount r.revision
    | some .release, _ => .release r.supplier r.id
    | none, _ => .release r.supplier r.id), 0⟩

/-- The table once the first n notices owed in it are placed: a CLOSING record goes with its notice, any other owes none
(R13). -/
def placedTable : Nat → List Record → List Record
  | _, [] => []
  | 0, rs => rs
  | n + 1, r :: rest =>
    if r.owed = none then r :: placedTable (n + 1) rest
    else if r.state = .closing then placedTable n rest
    else { r with owed := none } :: placedTable n rest

/-! ### Situations that claims name -/

/-- From s the station has entered OFFLINE at t: no entry, PEER_LOST set where one was removed, an empty link with its
receiver off, a TRIPPED path OPEN, or RAMPING where the start allowance is above 0, and what R153 has keep its value
(R118, R153). -/
def EntersOffline (s t : State) : Prop :=
  let allowance := if s.control.unpowered = true then (cfg s).startAllowance else 0
  t.control.station = .offline ∧ t.control.listenEnd = none
    ∧ (s.control.station ≠ .offline → hasEvent .stateChanged t = true)
    ∧ t.peers = [] ∧ hasEvent .peerLost t = (hasEvent .peerLost s || decide (s.peers ≠ []))
    ∧ t.link = { Link.initial with counters := t.link.counters }
    ∧ t.path.limit = allowance ∧ (allowance = 0 → t.path.state = .opened)
    ∧ (s.path.state = .tripped → 0 < allowance → t.path.state = .ramping)
    ∧ t.control.config = s.control.config ∧ t.control.unpowered = s.control.unpowered
    ∧ t.engine.demand = s.engine.demand ∧ t.engine.capacity = s.engine.capacity
    ∧ t.engine.nextContract = s.engine.nextContract ∧ t.engine.nextRequest = s.engine.nextRequest

/-- The station is ready to take q, the head of its Request Queue, of the kind given (R160). -/
def Taking (kind : Nat) (q : Request) (rest : List Request) (s : State) : Prop :=
  s.control.resetHeld = false ∧ s.control.station ≠ .loading ∧ s.host.requests = q :: rest ∧ q.kind.toNat = kind
    ∧ resultRoom s = true

/-- The state with the head request gone and its result written (R160, R161). -/
def completed (q : Request) (rest : List Request) (code : ResultCode) (data : List Byte) (s : State) : State :=
  { s with host := { s.host with
    requests := rest
    results := s.host.results ++ [⟨q.tag, q.kind, code, data⟩]
    flags := s.host.flags ||| Event.resultReady.bit } }

/-- The engine may consume f, the head of its inbound queue, from a known source and in range (R26, R141, R174). -/
def Consuming (f : Frame) (rest : List Frame) (s : State) : Prop :=
  s.control.resetHeld = false ∧ s.control.station.speaks = true ∧ normalRoom s = true ∧ s.link.inbound = f :: rest
    ∧ knownPeer s f.src = true ∧ f.body.inRange = true

/-- The state with the head of the inbound queue gone. -/
def consumed (rest : List Frame) (s : State) : State := { s with link := { s.link with inbound := rest } }

/-- The station receives a whole valid frame f from another station, while neither it nor its link drives the line
(R126, R135). -/
def Receiving (r : Reception) (f : Frame) (s : State) : Prop :=
  s.control.resetHeld = false ∧ s.control.station.hears = true ∧ classify r = .valid f ∧ f.src ≠ ownAddress s
    ∧ s.link.ackOut = none ∧ attemptOf s = none

/-- The frame has been heard: the line is idle from now on, and the entry of the source, if there is one, is ACTIVE with
its last-heard time now (R20, R127). -/
def heard (f : Frame) (s : State) : State :=
  { s with
    link := { s.link with idleSince := some s.now }
    peers := s.peers.map fun p => if p.addr = f.src then { p with lastHeard := s.now, liveness := .active } else p }

/-- An attempt of c that began at `start` is in progress (R128). -/
def Attempting (c : Current) (start : Nat) (s : State) : Prop :=
  s.control.resetHeld = false ∧ s.link.current = some c ∧ c.phase = .attempting start

/-- The state with an ask gone: an ASK frame it refers to and that has not begun its first attempt is withdrawn from the
normal queue (R48, R51, R52). -/
def withoutAsk (a : Ask) (s : State) : State :=
  { s with
    engine := { s.engine with asks := s.engine.asks.filter fun b => b.supplier ≠ a.supplier }
    link := { s.link with normal := match a.state with
      | .queued ref => s.link.normal.filter fun f => f.ref ≠ ref
      | _ => s.link.normal } }

/-- The state without any ask, their ASK frames withdrawn where they have not begun (R52). -/
def withoutAsks (s : State) : State :=
  { s with
    engine := { s.engine with asks := [] }
    link := { s.link with
      normal := s.link.normal.filter fun f => s.engine.asks.all fun a => decide (a.state ≠ .queued f.ref) } }

/-- The skip flag of an address set (R28). -/
def skipping (addr : Nat) (s : State) : State :=
  { s with peers := s.peers.map fun p => if p.addr = addr then { p with skip := true } else p }

/-- The state with a record in place of the records of its key, a change pending and CONTRACTS_CHANGED set (R16, R32). -/
def withRecord (r : Record) (s : State) : State :=
  { s with
    engine := { s.engine with
      table := s.engine.table.map fun q => if q.supplier = r.supplier ∧ q.id = r.id then r else q
      changePending := true }
    host := { s.host with flags := s.host.flags ||| Event.contractsChanged.bit } }

/-- The state with a record appended, a change pending and CONTRACTS_CHANGED set (R9, R16, R32). -/
def withNewRecord (r : Record) (s : State) : State :=
  { s with
    engine := { s.engine with table := s.engine.table ++ [r], changePending := true }
    host := { s.host with flags := s.host.flags ||| Event.contractsChanged.bit } }

/-- The state without the records of a key, a change pending and CONTRACTS_CHANGED set (R9, R16, R32). -/
def withoutRecord (supplier id : Nat) (s : State) : State :=
  { s with
    engine := { s.engine with
      table := s.engine.table.filter fun q => ¬ (q.supplier = supplier ∧ q.id = id)
      changePending := true }
    host := { s.host with flags := s.host.flags ||| Event.contractsChanged.bit } }

/-- The state with some records changed, a change pending and CONTRACTS_CHANGED set where there is one (R16, R32). -/
def withRecords (p : Record → Bool) (f : Record → Record) (s : State) : State :=
  if s.engine.table.any p then
    { s with
      engine := { s.engine with
        table := s.engine.table.map fun r => if p r = true then f r else r
        changePending := true }
      host := { s.host with flags := s.host.flags ||| Event.contractsChanged.bit } }
  else s

/-- Every ACTIVE taker-side record is CLOSING with RELEASE decided (R84, R116, R122). -/
def withTakesClosed (s : State) : State :=
  withRecords (fun r => decide (r.side = .take ∧ r.state = .active))
    (fun r => { r with state := .closing, owed := some .release }) s

/-- Every ACTIVE supplier-side record is in recall to 0, its deadline the recall timeout from now (R71, R85). A record keeps
its amount, so no change is pending by it (R32). -/
def withSuppliesRecalled (s : State) : State :=
  let m := withRecords (fun r => decide (r.side = .supply ∧ r.state = .active))
    (fun r => { r with
      state := .recalling 0 (r.revision + 1) (s.now + 125 * (cfg s).recallTimeout)
      owed := some .recall }) s
  { m with engine := { m.engine with changePending := s.engine.changePending } }

/-- The state with a frame at the tail of the normal queue (R140). -/
def withFrame (dst : Nat) (p : Payload) (s : State) : State :=
  { s with link := { s.link with normal := s.link.normal ++ [⟨dst, .fixed p, 0⟩] } }

/-- The attempt of c fails (R131, R133): the frame backs off, or waits pre-empted while an ALERT is queued, until its eighth
failure gives it up, which a directed frame's LINK_GIVEUP tells the host. -/
def failing (c : Current) (s : State) : State :=
  if c.failures + 1 < 8 then
    let d : Current := { c with failures := c.failures + 1, phase := .backoff }
    if c.frame.isUrgent = false ∧ s.link.urgent ≠ [] then
      { s with link := { s.link with current := none, preempted := some d } }
    else { s with link := { s.link with current := some d } }
  else
    ownerGivenUp c.frame { s with
      link := { s.link with
        current := none, counters := { s.link.counters with giveUps := min 65535 (s.link.counters.giveUps + 1) } }
      host := { s.host with
        flags := if c.frame.dst = 0 then s.host.flags else s.host.flags ||| Event.linkGiveup.bit } }

/-- The reception command of a valid frame's kind. -/
def receiveCommand (dt : Nat) (r : Reception) : Payload → Instr
  | .declare _ => .receiveDeclare dt r
  | .alert _ => .receiveAlert dt r
  | .ack => .receiveAck dt r
  | _ => .receiveDirectedFrame dt r

/-- POWER_ON_RESET, PIN_RESET or RESET_RELEASE. -/
def isReset : Instr → Bool
  | .powerOnReset _ _ => true
  | .pinReset _ => true
  | .resetRelease _ _ => true
  | _ => false

end Sys2Proof.Machine
end

