-- ==== Sys2Proof/Certificates/Slice0/Obligations.lean ====
section
/-! DEFINITION. The statements for the provers. In a statement about one command, `p` is the state after the dt bit times
that pass before the command, and `settle _ p m` is the end of the happening, by the rules that act at the end of every
happening, on the state m that the command's own effect leaves. What `settle` may change is stated on its own
(EndOfHappeningFrame, EndOfHappeningAddsNoRecord, LimitFollows, RecallPlanningCovers, and RoleDrains for the end of a
drain). What a record update of `p` does not
name, the command itself leaves unchanged. The dt of every command is the model's choice (log entry 1), and so is the clock
that a timer's command brings up to the timer's end (log entry 2); the statements that rest on the second say so.
A premise TablesOrdered, or that two lookups find one and the same ask or record, holds wherever the law of TablesSoundKept
does, and a minimum grant of at least 1 where that of RestsUnloadedKept does. -/

open Sys2Proof Sys2Proof.Machine

/-! ### The machine -/

/-- The front command runs on the state with the queue's rest. -/
def Obligations.StepRunsFrontCommand : Prop :=
  ∀ (c : Instr) (rest : List Instr) (s : State), s.pending = c :: rest → step s = exec c { s with pending := rest }

/-- What power-on reset leaves, by the values the spec gives (R17, R36, R60, R80, R81, R109, R119, R123, R142, R143, R145,
R159, R170). -/
def Obligations.ResetValues : Prop :=
  let s := State.reset
  s.control.station = .loading ∧ s.control.config = none ∧ s.control.unpowered = false ∧ s.control.fault = .none
    ∧ s.control.resetCause = .powerOn ∧ s.control.listenEnd = none
    ∧ s.engine.table = [] ∧ s.engine.asks = [] ∧ s.engine.role = .idle ∧ s.engine.demand = 0 ∧ s.engine.capacity = 0
    ∧ s.engine.supply = false ∧ s.engine.nextContract = 1 ∧ s.engine.nextRequest = 1 ∧ s.engine.suspendEnd = none
    ∧ s.engine.declareDue = false ∧ s.engine.changePending = false ∧ s.engine.lastInstant = none
    ∧ s.peers = []
    ∧ s.link.urgent = [] ∧ s.link.normal = [] ∧ s.link.current = none ∧ s.link.preempted = none ∧ s.link.inbound = []
    ∧ s.link.ackDue = none ∧ s.link.counters = ⟨0, 0, 0, 0, 0, 0⟩
    ∧ s.path.state = .opened ∧ s.path.limit = 0 ∧ s.path.overdraw = none ∧ s.path.shedEnd = none
    ∧ s.path.railTimer = none ∧ s.path.armed = true ∧ s.path.lastAlert = none ∧ s.path.pathEn = false
    ∧ s.path.limitOut = 0
    ∧ s.host.requests = [] ∧ s.host.results = [] ∧ s.host.reserved = 0 ∧ s.host.long = none
    ∧ s.host.staged = ⟨0, 0, 0, 0, 0, 0⟩ ∧ s.host.flags = 0 ∧ s.host.mask = 0 ∧ s.host.int = false

/-- The laws of the device hold right after reset. -/
def Obligations.ResetIsSound : Prop :=
  OutputsAgree State.reset ∧ PathOpenAtZero State.reset ∧ QueuesBounded State.reset ∧ Silent State.reset
    ∧ PeersCover State.reset ∧ TablesSound State.reset ∧ RequestsSound State.reset ∧ RolesSound State.reset
    ∧ CountersInRange State.reset ∧ RestsUnloaded State.reset

/-! ### Laws that every step keeps -/

/-- INT, PATH_EN and LIMIT_OUT follow the state in every step (R109, R169). -/
def Obligations.OutputsAgreeKept : Prop :=
  ∀ s t : State, OutputsAgree s → step s = .next t → OutputsAgree t

/-- The path is OPEN exactly at limit 0 while not TRIPPED, in every step (R110). -/
def Obligations.PathOpenAtZeroKept : Prop :=
  ∀ s t : State, PathOpenAtZero s → step s = .next t → PathOpenAtZero t

/-- The queues keep their bounds, with at most one DECLARE waiting, and no DECLARE out of range comes in (Law L9, R31, R140,
R173). -/
def Obligations.QueuesBoundedKept : Prop :=
  ∀ s t : State, QueuesBounded s → step s = .next t → QueuesBounded t

/-- Outside JOINED and LEAVING the link stays empty (Law L8, R142). -/
def Obligations.SilentKept : Prop :=
  ∀ s t : State, Silent s → step s = .next t → Silent t

/-- Every contract's counterpart keeps an entry (Law L5, R19). -/
def Obligations.PeersCoverKept : Prop :=
  ∀ s t : State, PeersCover s → step s = .next t → PeersCover t

/-- The tables stay sound, under the laws they rest on: in order, every field of a peer entry, a record and an ask in the
range R18, R5 and R40 give it, a CLOSING record with its notice owed, a RECALL owed only in RECALLING, the request-id
counter in 1 to 15, and no notice owed while the normal queue has a place (R1 to R3, R5, R8 to R13, R18, R40, R41). -/
def Obligations.TablesSoundKept : Prop :=
  ∀ s t : State, TablesSound s → QueuesBounded s → PeersCover s → RolesSound s → RestsUnloaded s → Silent s →
    step s = .next t → TablesSound t

/-- The Host Port's promises to its host stay sound (R152, R160, R161, R166). -/
def Obligations.RequestsSoundKept : Prop :=
  ∀ s t : State, RequestsSound s → step s = .next t → RequestsSound t

/-- Roles, the sides of contracts, asks and the trip stay in agreement (Laws L4, L6, L7, L12). -/
def Obligations.RolesSoundKept : Prop :=
  ∀ s t : State, RolesSound s → step s = .next t → RolesSound t

/-- The six link counters stay in range (R143). -/
def Obligations.CountersInRangeKept : Prop :=
  ∀ s t : State, CountersInRange s → step s = .next t → CountersInRange t

/-- A station without a good load rests, and one with it holds its configuration (R145, R146, R149). -/
def Obligations.RestsUnloadedKept : Prop :=
  ∀ s t : State, RestsUnloaded s → Silent s → step s = .next t → RestsUnloaded t

/-! ### Formats -/

/-- A frame put on the line whole, followed by an idle line, is received as that frame (11.1, R172). -/
def Obligations.FramesRoundTrip : Prop :=
  ∀ f : Frame, f.fits = true → classify ⟨f.bytes, 0, .idle⟩ = .valid f

/-- Both CRC-16 values use one algorithm (R171): from 0xFFFF, each bit, most significant first, shifts the value left and,
where the bit differs from the one shifted out, adds the polynomial 0x1021; nothing is inverted at the end; the result is
stored most significant byte first. It ends every frame over the bytes after the delimiter, and a frame or an image that
ends in another value fails its check. -/
def Obligations.CrcFollowsR171 : Prop :=
  (∀ bs : List Byte,
      crc16 bs = (bs.flatMap fun b => (List.range 8).map fun i => b.getMsbD i).foldl
        (fun (c : BitVec 16) x => if (c.msb != x) = true then (c <<< 1) ^^^ 0x1021 else c <<< 1) 0xFFFF
      ∧ crcBytes bs = [(crc16 bs).extractLsb' 8 8, (crc16 bs).extractLsb' 0 8])
    ∧ (∀ f : Frame, f.bytes = 0xB4#8 :: (f.covered ++ crcBytes f.covered))
    ∧ (∀ (r : Reception) (f : Frame), classify r = .valid f →
        r.bytes.drop (r.bytes.length - 2) = crcBytes ((r.bytes.drop 1).take (r.bytes.length - 3)))
    ∧ ∀ (bs : List Byte) (c : StationConfig), checkImage (some bs) = .adopt c →
        (bs.drop 28).take 2 = crcBytes (bs.take 28)

/-- The checks of the image (R146, R147, 11.2). An image is adopted only with every field in the range R147 gives it, the
start role code and the sheddable code among them. No image or fewer than 30 bytes is NO_MEMORY (an image cut short by the
model's reading, log entry 17); then come, in this order, the marker 0xE7 0x3A at offset 0, version 1 at offset 2, the CRC
at offset 28 over bytes 0 to 27, and the fields by their index, the first bad one named. What is adopted is the fields at
their offsets, with the default in place of a use-default code. -/
def Obligations.AdoptedConfigInRange : Prop :=
  (∀ (image : Option (List Byte)) (c : StationConfig), checkImage image = .adopt c →
    (1 ≤ c.address ∧ c.address ≤ 30) ∧ c.capacity ≤ 2000 ∧ c.demand ≤ 2000
      ∧ (1 ≤ c.minGrant ∧ c.minGrant ≤ 40) ∧ (10 ≤ c.period ∧ c.period ≤ 200)
      ∧ (50 ≤ c.askTimeout ∧ c.askTimeout ≤ 1000) ∧ (10 ≤ c.holdTime ∧ c.holdTime ≤ 500)
      ∧ (20 ≤ c.recallTimeout ∧ c.recallTimeout ≤ 1000) ∧ (1 ≤ c.overdrawGrace ∧ c.overdrawGrace ≤ 100)
      ∧ (10 ≤ c.shedGrace ∧ c.shedGrace ≤ 500) ∧ (1 ≤ c.overdrawMargin ∧ c.overdrawMargin ≤ 20)
      ∧ (1 ≤ c.rampTime ∧ c.rampTime ≤ 50) ∧ c.startAllowance ≤ 20 ∧ c.alertThreshold ≤ 6000
      ∧ (200 ≤ c.alertHoldoff ∧ c.alertHoldoff ≤ 5000)
      ∧ ∀ bs, image = some bs → 30 ≤ bs.length ∧ (bs.getD 4 0).toNat ≤ 2 ∧ (bs.getD 23 0).toNat ≤ 1
          ∧ c.startRole.code = (bs.getD 4 0).toNat ∧ c.sheddable = ((bs.getD 23 0).toNat == 1))
    ∧ checkImage none = .fault .noMemory
    ∧ ∀ bs : List Byte,
      let b (i : Nat) : Nat := (bs.getD i 0).toNat
      let w (i : Nat) : Nat := 256 * b i + b (i + 1)
      let d8 (i d : Nat) : Nat := if b i = 0xFF then d else b i
      let d16 (i d : Nat) : Nat := if w i = 0xFFFF then d else w i
      let marked := b 0 = 0xE7 ∧ b 1 = 0x3A
      let summed := (bs.drop 28).take 2 = crcBytes (bs.take 28)
      let ranges : List (Nat × Nat × Nat) :=
        [(b 3, 1, 30), (b 4, 0, 2), (w 5, 0, 2000), (w 7, 0, 2000), (d8 9 4, 1, 40), (d8 10 50, 10, 200),
          (d16 11 200, 50, 1000), (d16 13 50, 10, 500), (d16 15 100, 20, 1000), (d8 17 10, 1, 100), (d16 18 100, 10, 500),
          (d8 20 2, 1, 20), (d8 21 5, 1, 50), (d8 22 2, 0, 20), (b 23, 0, 1), (w 24, 0, 6000), (d16 26 1000, 200, 5000)]
      let bad := ranges.findIdx? fun x => decide (x.1 < x.2.1 ∨ x.2.2 < x.1)
      (bs.length < 30 → checkImage (some bs) = .fault .noMemory)
        ∧ (30 ≤ bs.length → ¬ marked → checkImage (some bs) = .fault .badMarker)
        ∧ (30 ≤ bs.length → marked → b 2 ≠ 1 → checkImage (some bs) = .fault .badVersion)
        ∧ (30 ≤ bs.length → marked → b 2 = 1 → ¬ summed → checkImage (some bs) = .fault .badCrc)
        ∧ (30 ≤ bs.length → marked → b 2 = 1 → summed →
            (∀ k, bad = some k → checkImage (some bs) = .fault (.badField (k + 1)))
            ∧ (bad = none → ∀ x, x.code = b 4 → checkImage (some bs) = .adopt
                { address := b 3, startRole := x, capacity := w 5, demand := w 7, minGrant := d8 9 4, period := d8 10 50
                  askTimeout := d16 11 200, holdTime := d16 13 50, recallTimeout := d16 15 100
                  overdrawGrace := d8 17 10, shedGrace := d16 18 100, overdrawMargin := d8 20 2, rampTime := d8 21 5
                  startAllowance := d8 22 2, sheddable := b 23 == 1, alertThreshold := w 24
                  alertHoldoff := d16 26 1000 }))

/-! ### The end of a happening -/

/-- What the end of a happening leaves alone: everything `outside` shows; the flags it sets are only among CONTRACTS_CHANGED,
ROLE_CHANGED, RESULT_READY and STATE_CHANGED, and it clears none. ROLE_CHANGED and STATE_CHANGED are set exactly where the
role value or the station state differs from before the happening (R93, R156), and CONTRACTS_CHANGED where the table's keys
are distinct exactly where a record went or changed in amount, revision or state (R16). In JOINED and LEAVING a change is
then pending where one was, where a record went, changed its amount or entered CLOSING, and where the role value, the
unpowered flag or effective capacity differs from before the happening, and, unless the role value changed twice in it,
nowhere else (R32). Where the station is not in JOINED or LEAVING
the end leaves the engine, the queues and the results alone. That a change of effective capacity there (R61, R62) makes no
DECLARE change pending is the model's reading of R31 (log entry 25). -/
def Obligations.EndOfHappeningFrame : Prop :=
  ∀ (shed : Bool) (p m : State),
    let t := settle shed p m
    outside t = outside m
      ∧ t.host.flags &&& m.host.flags = m.host.flags
      ∧ (m.control.station ≠ .loading →
          hasEvent .roleChanged t = (hasEvent .roleChanged m || decide (p.engine.role.value ≠ t.engine.role.value))
            ∧ hasEvent .stateChanged t = (hasEvent .stateChanged m || decide (p.control.station ≠ m.control.station)))
      ∧ (m.engine.table.Pairwise (fun q r => ¬ (q.supplier = r.supplier ∧ q.id = r.id)) →
          let stays (same : Record → Record → Prop) : Prop :=
            ∀ r ∈ m.engine.table, ∃ y ∈ t.engine.table, y.supplier = r.supplier ∧ y.id = r.id ∧ same y r
          let seen (y r : Record) : Prop := y.amount = r.amount ∧ y.revision = r.revision ∧ y.state.code = r.state.code
          let listed (y r : Record) : Prop := y.amount = r.amount ∧ (y.state = .closing → r.state = .closing)
          let declared : Prop := p.engine.role.value = t.engine.role.value ∧ p.control.unpowered = t.control.unpowered
            ∧ effectiveCapacity p = effectiveCapacity t
          (hasEvent .contractsChanged t = true ↔ hasEvent .contractsChanged m = true ∨ ¬ stays seen)
            ∧ (m.control.station.speaks = true →
                (m.engine.changePending = true ∨ ¬ stays listed ∨ ¬ declared → t.engine.changePending = true)
                ∧ (p.engine.role.value = m.engine.role.value ∨ m.engine.role.value = t.engine.role.value →
                    t.engine.changePending = true →
                    m.engine.changePending = true ∨ ¬ stays listed ∨ ¬ declared)))
      ∧ (m.control.station.speaks = false →
          t.engine = m.engine ∧ t.link = m.link ∧ t.host.results = m.host.results ∧ t.host.long = m.host.long)

/-- The end of a happening adds no record and moves none to another contract: every record it leaves stands for one it
found, with its key, side and counterpart. It ends no ask: each stands, or waited and is queued again (R49). An ask it adds
is one that R42 to R44 give: in JOINED and TAKER, at most 4 in all, to an ACTIVE supplier without its skip flag, with which
no CLOSING record is held and whose ACTIVE record leaves the minimum grant below 400, or with a place of the Contract Table
for the new record; for the amount its spare and the contract ceiling allow or what meets the demand, and not less than the
minimum grant (so the need was not less either; where that is above 400, not less than 400), with its frame queued, and no
candidate left over is better. The asks added stand behind those found, with request ids that count on from 15 to 1 (R41). -/
def Obligations.EndOfHappeningAddsNoRecord : Prop :=
  ∀ (shed : Bool) (p m : State),
    let t := settle shed p m
    let same (a b : Ask) : Prop :=
      a.supplier = b.supplier ∧ a.requestId = b.requestId ∧ a.raised = b.raised ∧ a.amount = b.amount
        ∧ a.minimum = b.minimum ∧ a.holds = b.holds
    let sends (a : Ask) : Prop :=
      ∃ ref, a.state = .queued ref
        ∧ ⟨a.supplier, .fixed (.ask a.requestId a.amount a.minimum (a.raised.getD 0)), ref⟩ ∈ t.link.normal
    let stands (b a : Ask) : Prop := same a b ∧ (a.state = b.state ∨ ((∃ since, b.state = .waiting since) ∧ sends a))
    (∀ r ∈ t.engine.table,
        ∃ q ∈ m.engine.table, r.supplier = q.supplier ∧ r.id = q.id ∧ r.side = q.side ∧ r.counterpart = q.counterpart)
      ∧ (TablesOrdered m → 1 ≤ (cfg m).minGrant →
          (∀ b ∈ m.engine.asks, ∃ a ∈ t.engine.asks, stands b a)
          ∧ ∀ a ∈ t.engine.asks, (∃ b ∈ m.engine.asks, stands b a)
            ∨ (sends a ∧ a.holds = 0 ∧ m.control.station = .joined ∧ t.engine.role = .taker
                ∧ t.engine.suspendEnd = none ∧ t.path.state ≠ .tripped ∧ held t + outstanding t ≤ t.engine.demand
                ∧ a.minimum = min (cfg t).minGrant a.amount ∧ min (cfg t).minGrant 400 ≤ a.amount
                ∧ t.engine.asks.length ≤ 4 ∧ a.raised = (takeWith t a.supplier).map Record.id
                ∧ (match takeWith t a.supplier with
                  | some r => r.state = .active ∧ (cfg t).minGrant ≤ 400 - r.amount
                  | none => t.engine.table.length + reservedPlaces t ≤ 16)
                ∧ ∃ x ∈ t.peers, x.addr = a.supplier ∧ x.liveness = .active ∧ x.role = .supplier ∧ x.skip = false
                  ∧ (cfg t).minGrant ≤ x.spare
                  ∧ (let most := match takeWith t a.supplier with
                      | some r => min x.spare (400 - r.amount)
                      | none => min x.spare 400
                    a.amount ≤ most ∧ (a.amount = most ∨ held t + outstanding t = t.engine.demand))
                  ∧ ∀ y ∈ t.peers, isCandidate t y = true → y.spare < x.spare ∨ (y.spare = x.spare ∧ x.addr < y.addr)))
      ∧ (1 ≤ m.engine.nextRequest → m.engine.nextRequest ≤ 15 →
          let id (i : Nat) : Nat := (m.engine.nextRequest + i - 1) % 15 + 1
          ∃ k, t.engine.nextRequest = id k
            ∧ t.engine.asks.map Ask.requestId = m.engine.asks.map Ask.requestId ++ (List.range k).map id)

/-- After every happening the limit is the one R111 gives the state, and PATH_EN and LIMIT_OUT follow (R109, R112). The path
opens at limit 0 and ramps from OPEN above it (R110). The overdraw timer runs, from its start or from now, exactly while a
CLOSED path's draw limit with the margin is below the reading (R113). The shed window opens, or opens anew, exactly where a
shed cause lowered held and the draw limit (R114). That the end of a happening trips no path, not where it opens a window
over an overdraw timer already past the shed grace either, is the model's choice (log entry 32), which R115 does not settle. -/
def Obligations.LimitFollows : Prop :=
  ∀ (shed : Bool) (p m : State), m.control.station ≠ .loading →
    let t := settle shed p m
    let draws := t.control.station ≠ .configFault
      ∧ (t.control.station.speaks = true → t.path.state = .tripped ∨ t.engine.role.supplies = false)
    t.path.limit = limitOf t ∧ t.path.limitOut = min 2000 (limitOf t)
      ∧ (t.path.pathEn = true ↔ t.path.state = .ramping ∨ t.path.state = .closed)
      ∧ (t.path.state = .tripped ↔ m.path.state = .tripped)
      ∧ (m.path.state ≠ .tripped → limitOf t = 0 → t.path.state = .opened ∧ t.path.rampEnd = none)
      ∧ (m.path.state = .opened → 0 < limitOf t →
          t.path.state = .ramping ∧ t.path.rampEnd = some (m.now + 125 * (cfg m).rampTime))
      ∧ (m.path.state = .ramping ∨ m.path.state = .closed → 0 < limitOf t →
          t.path.state = m.path.state ∧ t.path.rampEnd = m.path.rampEnd)
      ∧ (t.path.state = .closed ∧ t.control.station.speaks = true ∧ t.engine.role.supplies = false
            ∧ limitOf t + (cfg t).overdrawMargin < t.path.pathSense →
          t.path.overdraw = some (m.path.overdraw.getD m.now))
      ∧ (¬ (t.path.state = .closed ∧ t.control.station.speaks = true ∧ t.engine.role.supplies = false
            ∧ limitOf t + (cfg t).overdrawMargin < t.path.pathSense) → t.path.overdraw = none)
      ∧ (shed = true ∧ p.control.station = m.control.station ∧ held m < held p ∧ limitOf t < p.path.limit ∧ draws →
          t.path.shedEnd = some (m.now + 125 * (cfg m).shedGrace))
      ∧ (¬ (shed = true ∧ p.control.station = m.control.station ∧ held m < held p ∧ limitOf t < p.path.limit ∧ draws) →
          t.path.shedEnd = m.path.shedEnd)

/-- What every happening in JOINED and LEAVING leaves done, where the table's keys are distinct. In role SUPPLIER no
uncovered excess stands while a supplier-side record is ACTIVE (R70, R71), and in DRAINING_SUPPLY none is ACTIVE (R85, R86).
In role TAKER the trims have left held at most the demand, and have not gone below it, or every ACTIVE record is named by a
raise (R55). The table is the one that the plan of recalls or the trims give, record by record in the order of R71 and R55
(decidedTable), after the notices owed in it are placed, oldest record first, until the normal queue is full or none is
owed: each is in the queue with the content R13 gives it, a placed one is owed no more and a CLOSING record goes with its
own (R12, R13). They stand behind what the queue held, a due DECLARE with it only where it was full before the happening
(R33), and ahead of a DECLARE or ASK queued in the happening. That they stand ahead of that DECLARE, and that places freed
in the happening go by age when all is decided, is the model's choice (log entries 7 and 36). While the normal queue has a
place no ask waits for one (R49), and while more may be asked for no peer is left that could be asked (R42, R43). -/
def Obligations.RecallPlanningCovers : Prop :=
  ∀ (shed : Bool) (p m : State), m.engine.table.Pairwise (fun q r => ¬ (q.supplier = r.supplier ∧ q.id = r.id)) →
    m.control.station.speaks = true →
    let t := settle shed p m
    (m.engine.role = .supplier → uncovered t = 0 ∨ ∀ r ∈ t.engine.table, r.side = .supply → r.state ≠ .active)
      ∧ (∀ x u, m.engine.role = .drainingSupply x u → ∀ r ∈ t.engine.table, r.side = .supply → r.state ≠ .active)
      ∧ (m.engine.role = .taker →
          min (held m) t.engine.demand ≤ held t
          ∧ (held t ≤ t.engine.demand
            ∨ ∀ r ∈ t.engine.table, r.side = .take → r.state = .active → raiseNames t r = true))
      ∧ ((∀ r ∈ m.engine.table, r.owed = some .recall → r.isRecalling = true) →
          let owing := (decidedTable p m).filter fun r => r.owed.isSome
          ∃ k ahead behind, k ≤ owing.length ∧ t.engine.table = placedTable k (decidedTable p m)
            ∧ t.link.normal = ahead ++ (owing.take k).map noticeOf ++ behind
            ∧ (k = owing.length ∨ 12 ≤ ahead.length + k) ∧ (k = 0 ∨ ahead.length + k ≤ 12)
            ∧ ahead.filter (fun f => !f.isDeclare) = m.link.normal.filter (fun f => !f.isDeclare)
            ∧ (p.link.normal.length < 12 → ahead.length = m.link.normal.length)
            ∧ ∀ f ∈ behind, f.isDeclare = true
                ∨ ∃ rid amount minimum id, f.body = .fixed (.ask rid amount minimum id))
      ∧ (t.link.normal.length < 12 → m.engine.asks.length ≤ 4 → ∀ a ∈ t.engine.asks, ∀ since, a.state ≠ .waiting since)
      ∧ (t.control.station = .joined → t.engine.role = .taker → t.path.state ≠ .tripped → t.engine.suspendEnd = none →
          held t + outstanding t + (cfg t).minGrant ≤ t.engine.demand → t.engine.asks.length < 4 →
          t.link.normal.length < 12 →
          ∀ x ∈ t.peers, x.liveness = .active → x.role = .supplier → (cfg t).minGrant ≤ x.spare → x.skip = false →
            (∀ a ∈ t.engine.asks, a.supplier ≠ x.addr) →
            match takeWith t x.addr with
            | some r => r.state ≠ .active ∨ 400 - r.amount < (cfg t).minGrant
            | none => 16 ≤ t.engine.table.length + reservedPlaces t)

/-! ### Reset, load and joining -/

/-- A reset returns every block to its initial state with its cause and begins LOADING: at once after POWER_ON_RESET and
RESTART, at RESET_RELEASE after PIN_RESET, which holds the station until the release; each but PIN_RESET samples the straps
(R145, R157, R165). The model's choices in it: that the readings on the pins and the counter of free values outlast a reset
(log entries 13 and 16), the initial values 0 of the incarnation and 1 of the number of ASK frames (log entries 20 and 23),
the record of bytes read, which is emptied (log entry 12), and that a POWER_ON_RESET while RESET is asserted leaves the
station held (log entry 19). -/
def Obligations.ResetCommandsReset : Prop :=
  ∀ (dt : Nat) (straps : BitVec 2) (s : State),
    let blank (c : Control) (h : HostPort) : State :=
      { control := c, engine := Engine.initial, peers := [], link := Link.initial,
        path := PathCtl.initial s.path.pathSense s.path.railSense, host := { h with draws := s.host.draws },
        now := s.now + dt, pending := s.pending }
    (s.control.resetHeld = false →
        exec (.powerOnReset dt straps) s
          = .next (blank (Control.initial .powerOn (s.now + dt)) (HostPort.initial straps)))
      ∧ (s.control.resetHeld = true →
          exec (.powerOnReset dt straps) s
            = .next (blank { Control.initial .powerOn (s.now + dt) with resetHeld := true, loadStart := none }
                { HostPort.initial straps with address := s.host.address }))
      ∧ exec (.pinReset dt) s
          = .next (blank { Control.initial .pin (s.now + dt) with resetHeld := true, loadStart := none }
              { HostPort.initial s.host.straps with address := s.host.address })
      ∧ (s.control.resetHeld = true →
          exec (.resetRelease dt straps) s
            = .next (blank (Control.initial s.control.resetCause (s.now + dt)) (HostPort.initial straps)))
      ∧ (∀ q rest, s.control.resetHeld = false → s.control.station ≠ .loading → s.host.requests = q :: rest →
          q.kind.toNat = 10 →
          exec (.restart ⟨dt, straps⟩) s
            = .next (blank (Control.initial .command (s.now + dt)) (HostPort.initial straps)))

/-- While RESET is asserted the station is held: no command but a reset changes anything but the clock and the readings of
the sense lines (R145; that the sense lines are still followed is the model's choice, log entry 19). -/
def Obligations.HeldResetHolds : Prop :=
  ∀ (i : Instr) (s : State), s.control.resetHeld = true → s.link.ackOut = none → isReset i = false →
    ∃ t, exec i s = .next t ∧ s.now ≤ t.now
      ∧ { t with
          now := s.now
          path := { t.path with pathSense := s.path.pathSense, railSense := s.path.railSense } } = s

/-- The end of the memory read: a read in time is judged by the checks of R146, a later one or none has failed; a failing
load enters CONFIG_FAULT with its code, a good one is adopted and LISTENING begins (R146, R148 to R150). A head request
that waited for the end of LOADING is taken then (R160; in the same happening by the model's choice, log entry 11, which
also samples SUPPLY_PRESENT at the end of a failed load, log entry 18, and brings the clock up to the time limit, log
entry 2). -/
def Obligations.LoadEnds : Prop :=
  ∀ (dt t0 : Nat) (image : Option (List Byte)) (supply : Bool) (s : State),
    let p := advance dt s
    let failed (q : State) (code : FaultCode) : State :=
      { q with
        control := { q.control with station := .configFault, fault := code, loadStart := none }
        engine := { q.engine with supply := supply } }
    let adopted (c : StationConfig) : State :=
      { p with
        control := { p.control with
          station := .listening, config := some c, loadStart := none, unpowered := !supply
          listenEnd := some (p.now + 125 * max (20 * c.period) 400) }
        engine := { p.engine with demand := c.demand, capacity := c.capacity, supply := supply }
        link := { p.link with idleSince := some p.now } }
    s.control.resetHeld = false → s.control.station = .loading → s.control.loadStart = some t0 →
      (∀ code, s.now + dt ≤ t0 + 12500 → checkImage image = .fault code →
          exec (.loadComplete dt image supply) s = .next (settle false p (takeHead (failed p code))))
      ∧ (∀ c, s.now + dt ≤ t0 + 12500 → checkImage image = .adopt c →
          exec (.loadComplete dt image supply) s = .next (settle false p (takeHead (adopted c))))
      ∧ (t0 + 12500 < s.now + dt →
          exec (.loadComplete dt image supply) s = .next (settle false p (takeHead (failed p .noMemory))))
      ∧ exec (.memoryTimeout dt supply) s
          = .next (settle false p (takeHead (failed (reach (t0 + 12500) p) .noMemory)))

/-- The end of the listen window joins: the incarnation drawn, the start role, a first DECLARE at the head of the empty
normal queue, STATE_CHANGED, and a REJOIN in progress completed DONE (R82, R151). The queue and the tables are empty in
LISTENING by the laws of SilentKept and RolesSoundKept. The incarnation is an operand, and the clock is brought up to the
window's end (the model's choices, log entries 2 and 5). -/
def Obligations.ListenEndJoins : Prop :=
  ∀ (dt e rail : Nat) (incarnation : Byte) (s : State),
    s.control.resetHeld = false → s.control.station = .listening → s.control.listenEnd = some e →
    s.link.normal = [] → s.engine.table = [] → s.engine.asks = [] →
    ∃ t, exec (.listenTimerEnd dt incarnation rail) s = .next t
      ∧ t.now = max (s.now + dt) e ∧ t.control.station = .joined ∧ t.control.incarnation = incarnation
      ∧ t.control.listenEnd = none ∧ t.control.config = s.control.config ∧ t.engine.role = startRole s
      ∧ t.link.normal.head? = some ⟨0, .declare false, 0⟩ ∧ t.peers = s.peers
      ∧ hasEvent .stateChanged t = true
      ∧ (∀ tag, s.host.long = some ⟨.rejoin, tag⟩ →
          t.host.long = none ∧ t.host.results = s.host.results ++ [⟨tag, 5, .done, []⟩])
      ∧ (s.host.long = none → t.host.long = none ∧ t.host.results = s.host.results)

/-! ### The host's writes -/

/-- A write to the commit location queues the staged request, or is refused with REQUEST_LOST when 4 wait (R159); a write to
the pop location removes the oldest result, and lets a head request that waited for its place be taken (R160, R161). Each
leaves the location pointer behind the location it wrote (R175). That the row is a whole transaction, and that the pop takes
the waiting request itself when its byte is applied, is the model's choice (log entries 11 and 15). -/
def Obligations.CommitAndPop : Prop :=
  ∀ (dt : Nat) (v : Byte) (s : State), s.control.resetHeld = false →
    let p := advance dt s
    (s.host.requests.length < 4 →
        exec (.commit dt v) s = .next (settle false p
          { p with host := { p.host with requests := s.host.requests ++ [s.host.staged], pointer := 0x01B } }))
      ∧ (4 ≤ s.host.requests.length →
          exec (.commit dt v) s = .next (settle false p
            { p with host := { p.host with
              flags := s.host.flags ||| Event.requestLost.bit, pointer := 0x01B } }))
      ∧ (s.host.results = [] →
          exec (.pop dt v) s = .next (settle false p { p with host := { p.host with pointer := 0x01C } }))
      ∧ (∀ r rest, s.host.results = r :: rest → (takeable p).isSome = true ∨ s.host.requests = [] →
          exec (.pop dt v) s = .next (settle false p
            { p with host := { p.host with results := rest, pointer := 0x01C } }))
      ∧ (∀ r rest, s.host.results = r :: rest → takeable p = none →
          exec (.pop dt v) s = .next (settle false p
            (takeHead { p with host := { p.host with results := rest, pointer := 0x01C } })))

/-- A flag clear clears the flags written as 1 (R168); a mask write sets the enables of the eleven events (R169, R176).
That each row is a whole transaction is the model's choice (log entry 15). -/
def Obligations.FlagsAndMaskWritten : Prop :=
  ∀ (dt : Nat) (v : BitVec 16) (s : State), s.control.resetHeld = false →
    let p := advance dt s
    exec (.eventFlagClear dt v) s = .next (settle false p
        { p with host := { p.host with flags := s.host.flags &&& ~~~v, pointer := 0x012 } })
      ∧ exec (.eventMaskWrite dt v) s = .next (settle false p
          { p with host := { p.host with mask := v &&& 0x07FF, pointer := 0x014 } })

/-- Host transactions (R157, R175, R176): six bytes at 0x014 stage a request, and with a seventh commit it; a part of them
stages that part; two bytes set the pointer; a flag or mask byte left out is taken as 0; a byte elsewhere has no effect but
on the pointer; a read returns the window's bytes from the pointer on, the sixteen bytes of STATUS at location 0, and moves
the pointer alone. The model's choices in it: a write of just the commit, pop, flag or mask region is the same happening as
that region's own row (log entry 15), where a pop may take the request that waited for its place (log entry 11); after one
byte alone the pointer is a free value (log entry 13), and so is a byte read at a write-only location (log entry 14); a read
is an operand of the row and its bytes a field of the state (log entry 12); a pointer beyond 0x184 goes on by one (log entry
26); the tag in STATUS reads 0 with no long request (log entry 33). Other writes over several regions are not stated. -/
def Obligations.HostWritesAndReads : Prop :=
  ∀ (dt : Nat) (s : State), s.control.resetHeld = false →
    let p := advance dt s
    (∀ k g a b c d : Byte,
        exec (.hostWrite dt [0x00, 0x14, k, g, a, b, c, d] 0) s = .next (settle false p
          { p with host := { p.host with staged := ⟨k, g, a, b, c, d⟩, pointer := 0x01A } }))
      ∧ (∀ k g a b c d v : Byte, s.host.requests.length < 4 →
          exec (.hostWrite dt [0x00, 0x14, k, g, a, b, c, d, v] 0) s = .next (settle false p
            { p with host := { p.host with
              staged := ⟨k, g, a, b, c, d⟩, requests := s.host.requests ++ [⟨k, g, a, b, c, d⟩], pointer := 0x01B } }))
      ∧ (∀ a b : Byte,
          exec (.hostWrite dt [0x00, 0x16, a, b] 0) s = .next (settle false p
            { p with host := { p.host with staged := { s.host.staged with arg0 := a, arg1 := b }, pointer := 0x018 } }))
      ∧ (∀ h l : Byte,
          exec (.hostWrite dt [h, l] 0) s = .next (settle false p
            { p with host := { p.host with pointer := h ++ l } }))
      ∧ (∀ h : Byte,
          exec (.hostWrite dt [h] 0) s = .next (settle false p
            { p with host := { p.host with
              pointer := Config.shortPointer s.host.draws, draws := s.host.draws + 1 } }))
      ∧ (∀ b : Byte,
          exec (.hostWrite dt [0x00, 0x1A, b] 0) s = exec (.commit dt b) s
            ∧ exec (.hostWrite dt [0x00, 0x1B, b] 0) s = exec (.pop dt b) s)
      ∧ (∀ h l : Byte,
          exec (.hostWrite dt [0x00, 0x10, h, l] 0) s = exec (.eventFlagClear dt (h ++ l)) s
            ∧ exec (.hostWrite dt [0x00, 0x12, h, l] 0) s = exec (.eventMaskWrite dt (h ++ l)) s)
      ∧ (∀ h : Byte,
          exec (.hostWrite dt [0x00, 0x12, h] 0) s = .next (settle false p
            { p with host := { p.host with mask := (h ++ 0#8) &&& 0x07FF, pointer := 0x013 } })
          ∧ exec (.hostWrite dt [0x00, 0x13, h] 0) s = .next (settle false p
            { p with host := { p.host with mask := (0#8 ++ h) &&& 0x07FF, pointer := 0x014 } })
          ∧ exec (.hostWrite dt [0x00, 0x10, h] 0) s = .next (settle false p
            { p with host := { p.host with flags := s.host.flags &&& ~~~(h ++ 0#8), pointer := 0x011 } })
          ∧ exec (.hostWrite dt [0x00, 0x11, h] 0) s = .next (settle false p
            { p with host := { p.host with flags := s.host.flags &&& ~~~(0#8 ++ h), pointer := 0x012 } }))
      ∧ (∀ h l b : Byte, (h ++ l).toNat < 0x010 ∨ 0x01C ≤ (h ++ l).toNat →
          exec (.hostWrite dt [h, l, b] 0) s = .next (settle false p
            { p with host := { p.host with pointer := nextPointer (h ++ l) } }))
      ∧ (∀ n, 0 < n →
          exec (.hostWrite dt [] n) s = .next
            { p with host := { p.host with
              out := readBytes p n s.host.draws s.host.pointer
              pointer := pointerAfter n s.host.pointer
              draws := s.host.draws + n } })
      ∧ (s.host.pointer = 0 →
          exec (.hostWrite dt [] 16) s = .next
            { p with host := { p.host with
              out := [s.control.station.byte, put8 s.engine.role.value.code,
                (match s.engine.role.target with | some x => put8 x.code | none => 0xFF), s.path.state.byte,
                (if s.control.unpowered then 1 else 0) ||| (if s.engine.supply then 2 else 0),
                s.control.fault.bytes.1, s.control.fault.bytes.2, s.control.resetCause.byte,
                put8 (s.engine.demand / 256), put8 s.engine.demand,
                put8 (s.engine.capacity / 256), put8 s.engine.capacity,
                put8 s.host.requests.length, put8 s.host.results.length,
                (match s.host.long with | some l => l.kind.byte | none => 0),
                (match s.host.long with | some l => l.tag | none => 0)]
              pointer := 0x010
              draws := s.host.draws + 16 } })

/-! ### Requests -/

/-- SET_DEMAND and SET_CAPACITY of 0 to 2000, taken in JOINED, store the value and complete DONE (R38, R61, R162). -/
def Obligations.ValuesAreSet : Prop :=
  ∀ (dt : Nat) (q : Request) (rest : List Request) (s : State),
    let p := advance dt s
    s.control.station = .joined → q.value ≤ 2000 →
      (Taking 1 q rest s →
          exec (.setDemand dt) s = .next (settle false p (completed q rest .done []
            { p with engine := { p.engine with demand := q.value } })))
      ∧ (Taking 2 q rest s →
          exec (.setCapacity dt) s = .next (settle false p (completed q rest .done []
            { p with engine := { p.engine with capacity := q.value } })))

/-- A request whose argument or condition fails completes REFUSED_ARG or REFUSED_STATE and does nothing else: the range
tests come first (R83, R89, R117, R152, R154, R160 to R163). That the supply test refuses a SET_ROLE toward SUPPLIER in a
drain already toward SUPPLIER too is the model's choice (log entry 35). -/
def Obligations.RequestsRefused : Prop :=
  ∀ (dt : Nat) (q : Request) (rest : List Request) (s : State),
    let p := advance dt s
    let refused (i : Instr) (code : ResultCode) : Prop :=
      exec i s = .next (settle false p (completed q rest code [] p))
    (∀ k, Taking k q rest s → k = 0 ∨ 10 < k → refused (.unknownRequest dt) .refusedArg)
      ∧ (Taking 1 q rest s → 2000 < q.value → refused (.setDemand dt) .refusedArg)
      ∧ (Taking 2 q rest s → 2000 < q.value → refused (.setCapacity dt) .refusedArg)
      ∧ (Taking 3 q rest s → 3 ≤ q.arg0.toNat → refused (.setRole dt) .refusedArg)
      ∧ (Taking 1 q rest s → q.value ≤ 2000 → s.control.station ≠ .joined → refused (.setDemand dt) .refusedState)
      ∧ (Taking 2 q rest s → q.value ≤ 2000 → s.control.station ≠ .joined → refused (.setCapacity dt) .refusedState)
      ∧ (Taking 3 q rest s → q.arg0.toNat < 3 → s.control.station ≠ .joined → refused (.setRole dt) .refusedState)
      ∧ (Taking 3 q rest s → q.arg0.toNat = 2 → s.control.station = .joined → s.engine.role.value ≠ .supplier →
          s.engine.role.value ≠ .drainingSupply → supplyTestFails s = true → refused (.setRole dt) .refusedState)
      ∧ (Taking 4 q rest s → s.control.station ≠ .joined → s.control.station ≠ .listening →
          refused (.leave dt) .refusedState)
      ∧ (Taking 4 q rest s → s.control.station = .listening → s.host.long = none → refused (.leave dt) .refusedState)
      ∧ (Taking 5 q rest s → s.control.station ≠ .offline → refused (.rejoin dt) .refusedState)
      ∧ (Taking 6 q rest s → s.path.state ≠ .tripped → refused (.reclose dt) .refusedState)
      ∧ (Taking 7 q rest s → s.engine.supply = false → refused (.clearUnpowered dt) .refusedState)

/-- SET_ROLE to the role held, and from IDLE to TAKER or, past the supply test, to SUPPLIER, completes DONE at once
(R83). -/
def Obligations.RoleMovesAtOnce : Prop :=
  ∀ (dt : Nat) (q : Request) (rest : List Request) (x : Target) (s : State),
    let p := advance dt s
    Taking 3 q rest s → s.control.station = .joined → Target.ofCode q.arg0.toNat = some x →
      (s.engine.role = x.role → exec (.setRole dt) s = .next (settle false p (completed q rest .done [] p)))
      ∧ (s.engine.role = .idle → x = .taker ∨ (x = .supplier ∧ supplyTestFails s = false) →
          exec (.setRole dt) s = .next (settle false p (completed q rest .done []
            { p with engine := { p.engine with role := x.role } })))

/-- SET_ROLE away from TAKER or SUPPLIER begins a drain, which it waits for as the long request: a taker gives up its asks,
and each ACTIVE record is CLOSING with RELEASE decided; at a supplier each ACTIVE record is in recall to 0 (R83 to R85).
During a drain, a target other than the role being left turns the drain to it, and the role being left ends the drain;
either way the long request that the drain served completes ABORTED (R88, R89). The drain ends in the happening that leaves
no record of its side: the role is the target, or IDLE where the supply test fails for SUPPLIER; the SET_ROLE completes, and
when leaving the final DECLARE takes its place, or waits for one (R87, R34): with none waiting or due and the queue not full
before, the tail, behind every notice; with one waiting, that one's place, whatever stands behind it (that R33 and R34 hold
there against R152 is the model's reading, log entry 28). -/
def Obligations.RoleDrains : Prop :=
  (∀ (dt : Nat) (q : Request) (rest : List Request) (x : Target) (s : State),
    let p := advance dt s
    let waits (m : State) : State :=
      { m with host := { m.host with
        requests := rest, reserved := s.host.reserved + 1, long := some ⟨.setRole, q.tag⟩ } }
    TablesOrdered s → Taking 3 q rest s → s.control.station = .joined → Target.ofCode q.arg0.toNat = some x →
      (s.engine.role = .taker → x ≠ .taker → (x = .supplier → supplyTestFails s = false) →
          let m := waits (withTakesClosed (withoutAsks p))
          exec (.setRole dt) s = .next (settle false p
            { m with engine := { m.engine with role := .drainingTake x (.setRole q.tag) } }))
      ∧ (s.engine.role = .supplier → x ≠ .supplier →
          let m := waits (withSuppliesRecalled p)
          exec (.setRole dt) s = .next (settle false p
            { m with engine := { m.engine with role := .drainingSupply x (.setRole q.tag) } }))
      ∧ (∀ y u l left again,
          (left = Target.taker ∧ again = Role.drainingTake) ∨ (left = Target.supplier ∧ again = Role.drainingSupply) →
          s.engine.role = again y u → s.host.long = some l →
          let aborted := s.host.results ++ [⟨l.tag, l.kind.byte, .aborted, []⟩]
          (x = left → exec (.setRole dt) s = .next (settle false p (completed q rest .done []
            { p with
              engine := { p.engine with role := left.role }
              host := { p.host with
                results := aborted, reserved := s.host.reserved - 1, long := none } })))
          ∧ (x ≠ left → (x = .supplier → supplyTestFails s = false) →
              exec (.setRole dt) s = .next (settle false p
                { p with
                  engine := { p.engine with role := again x (.setRole q.tag) }
                  host := { p.host with
                    requests := rest, results := aborted, long := some ⟨.setRole, q.tag⟩
                    flags := s.host.flags ||| Event.resultReady.bit } }))))
    ∧ ∀ (shed : Bool) (p m : State) (x : Target) (u : Purpose) (side : Side) (drains : Target → Purpose → Role),
      (side = .take ∧ drains = Role.drainingTake) ∨ (side = .supply ∧ drains = Role.drainingSupply) →
      m.control.station.speaks = true → m.engine.role = drains x u →
        let t := settle shed p m
        let fails := x = .supplier ∧ supplyTestFails m = true
        let noneBehind (t : State) : Prop :=
          ∀ before f after, t.link.normal = before ++ f :: after → f.isFinal = true → ∀ g ∈ after, g.isNotice = false
        ((∃ r ∈ t.engine.table, r.side = side) → t.engine.role = m.engine.role ∧ t.host.long = m.host.long)
        ∧ ((∀ r ∈ t.engine.table, r.side ≠ side) →
            (fails → t.engine.role = .idle) ∧ (¬ fails → t.engine.role = x.role)
            ∧ (∀ tag l, u = .setRole tag → m.host.long = some l →
                t.host.long = none ∧ hasEvent .resultReady t = true
                  ∧ (fails → t.host.results = m.host.results ++ [⟨l.tag, l.kind.byte, .refusedState, []⟩])
                  ∧ (¬ fails → t.host.results = m.host.results ++ [⟨l.tag, l.kind.byte, .done, []⟩]))
            ∧ (u = .leaving → finalAbout m = false →
                t.engine.finalDue = true ∧ t.host.long = m.host.long
                  ∧ (t.link.normal.any OutFrame.isFinal = true ∨ (t.engine.declareDue = true ∧ 12 ≤ t.link.normal.length))
                  ∧ (m.link.normal.any OutFrame.isDeclare = false → m.engine.declareDue = false →
                      p.link.normal.length < 12 → noneBehind t)
                  ∧ ∀ before d after, m.link.normal = before ++ d :: after → d.isDeclare = true →
                      (∀ g ∈ before, g.isDeclare = false) →
                      ∃ more, t.link.normal = before ++ ⟨0, .declare true, 0⟩ :: (after ++ more)))

/-- LEAVE in JOINED enters LEAVING as the long request: from IDLE the final DECLARE is due at once, from TAKER and SUPPLIER
a drain toward IDLE begins (each ACTIVE record CLOSING with RELEASE decided, or in recall to 0), and a drain in progress
turns to it with its SET_ROLE ABORTED (R90, R152). REJOIN in OFFLINE enters LISTENING as the long request, and a LEAVE then
abandons it: OFFLINE again as R153 says, the entries gone with PEER_LOST, a TRIPPED path OPEN, both requests completed
(R118, R153, R154). -/
def Obligations.LeaveAndRejoin : Prop :=
  ∀ (dt : Nat) (q : Request) (rest : List Request) (s : State),
    let p := advance dt s
    let left : State :=
      { p with
        control := { p.control with station := .leaving }
        path := { p.path with railTimer := none, armed := true }
        host := { p.host with
          requests := rest, reserved := s.host.reserved + 1, long := some ⟨.leave, q.tag⟩ } }
    (Taking 4 q rest s → s.control.station = .joined → s.engine.role = .idle →
        exec (.leave dt) s = .next (settle false p
          { left with engine := { p.engine with finalDue := true, declareDue := true } }))
      ∧ (TablesOrdered s → Taking 4 q rest s → s.control.station = .joined → s.engine.role = .taker →
          let m := withTakesClosed (withoutAsks left)
          exec (.leave dt) s = .next (settle false p
            { m with engine := { m.engine with role := .drainingTake .idle .leaving } }))
      ∧ (TablesOrdered s → Taking 4 q rest s → s.control.station = .joined → s.engine.role = .supplier →
          let m := withSuppliesRecalled left
          exec (.leave dt) s = .next (settle false p
            { m with engine := { m.engine with role := .drainingSupply .idle .leaving } }))
      ∧ (∀ y u l again, Taking 4 q rest s → s.control.station = .joined →
          again = Role.drainingTake ∨ again = Role.drainingSupply →
          s.engine.role = again y u → s.host.long = some l →
          exec (.leave dt) s = .next (settle false p
            { left with
              engine := { p.engine with role := again .idle .leaving }
              host := { left.host with
                reserved := s.host.reserved
                results := s.host.results ++ [⟨l.tag, l.kind.byte, .aborted, []⟩]
                flags := s.host.flags ||| Event.resultReady.bit } }))
      ∧ (Taking 5 q rest s → s.control.station = .offline →
          exec (.rejoin dt) s = .next (settle false p
            { p with
              control := { p.control with
                station := .listening, listenEnd := some (p.now + 125 * max (20 * (cfg s).period) 400) }
              link := { p.link with idleSince := some p.now }
              host := { p.host with
                requests := rest, reserved := s.host.reserved + 1, long := some ⟨.rejoin, q.tag⟩ } }))
      ∧ (∀ tag, Taking 4 q rest s → s.control.station = .listening → s.host.long = some ⟨.rejoin, tag⟩ →
          ∃ t, exec (.leave dt) s = .next t ∧ EntersOffline s t ∧ t.host.long = none ∧ t.host.requests = rest
            ∧ t.link.counters = s.link.counters
            ∧ t.host.results = s.host.results ++ [⟨tag, 5, .aborted, []⟩, ⟨q.tag, q.kind, .done, []⟩])

/-- RECLOSE in TRIPPED frees the path, CLEAR_UNPOWERED with the local supply present clears the flag, and the two snapshots
return the tables in their order (R9, R16, R18, R35, R117, R163, R164). -/
def Obligations.OtherRequestsDone : Prop :=
  ∀ (dt : Nat) (q : Request) (rest : List Request) (s : State),
    let p := advance dt s
    (Taking 6 q rest s → s.path.state = .tripped →
        exec (.reclose dt) s = .next (settle false p (completed q rest .done []
          { p with path := { p.path with state := .opened, overdraw := none, shedEnd := none } })))
      ∧ (Taking 7 q rest s → s.engine.supply = true →
          exec (.clearUnpowered dt) s = .next (settle false p (completed q rest .done []
            { p with control := { p.control with unpowered := false } })))
      ∧ (Taking 8 q rest s →
          exec (.readPeers dt) s = .next (settle false p (completed q rest .done (s.peers.flatMap Peer.bytes) p)))
      ∧ (Taking 9 q rest s →
          exec (.readContracts dt) s
            = .next (settle false p (completed q rest .done (s.engine.table.flatMap Record.bytes) p)))

/-- A RESTART at the head of the Request Queue resets the station with cause COMMAND, whatever the Result Queue holds, and
the host port answers at the address that the straps sampled then select (R145, R157, R165). The sense readings and the
counter of free values (log entries 13 and 16), the incarnation 0 (log entry 20), the number 1 of the next ASK frame (log
entry 23) and the emptied record of bytes read (log entry 12) are the model's choices. -/
def Obligations.RestartResets : Prop :=
  ∀ (dt : Nat) (straps : BitVec 2) (q : Request) (rest : List Request) (s : State),
    s.control.resetHeld = false → s.control.station ≠ .loading → s.host.requests = q :: rest → q.kind.toNat = 10 →
      ∃ current rail draws : Nat,
        exec (.restart ⟨dt, straps⟩) s = .next
          { control := Control.initial .command (s.now + dt)
            engine := Engine.initial
            peers := []
            link := Link.initial
            path := PathCtl.initial current rail
            host := {
              requests := [], results := [], reserved := 0, long := none, staged := ⟨0, 0, 0, 0, 0, 0⟩
              flags := 0, mask := 0, int := false, pointer := 0, address := 0x4C#7 + straps.setWidth 7
              straps := straps, out := [], draws := draws }
            now := s.now + dt
            pending := s.pending }

/-! ### Receptions -/

/-- The first stage of a DECLARE at reception, by the table of section 2.3: an entry is created, refreshed, created anew or
lost, or the DECLARE is disregarded; out of range it only counts as hearing its source (R20, R22 to R25, R173). The frame
then goes on to the inbound queue as AlertReceived says of every broadcast, unless it carries the leaving flag. -/
def Obligations.DeclareReceived : Prop :=
  ∀ (dt : Nat) (r : Reception) (f : Frame) (d : Declare) (s : State),
    let p := advance dt s
    let h := heard f p
    Receiving r f s → f.body = .declare d →
      (d.inRange = false → exec (.receiveDeclare dt r) s = .next (settle true p h))
      ∧ (d.inRange = true → findPeer s f.src = none → d.leaving = true →
          exec (.receiveDeclare dt r) s = .next (settle true p h))
      ∧ (d.inRange = true → findPeer s f.src = none → d.leaving = false →
          exec (.receiveDeclare dt r) s = .next (settle true p (deliverBroadcast f
            { h with
              peers := insertPeer (newPeer f.src d p) h.peers
              host := { p.host with flags := s.host.flags ||| Event.peerJoined.bit } })))
      ∧ (∀ q, d.inRange = true → findPeer s f.src = some q → d.leaving = false → q.incarnation = d.incarnation →
          exec (.receiveDeclare dt r) s = .next (settle true p (deliverBroadcast f
            { h with peers := s.peers.map fun x =>
                if x.addr = f.src then { newPeer f.src d p with nextOut := x.nextOut, lastIn := x.lastIn } else x })))
      ∧ (∀ q, d.inRange = true → findPeer s f.src = some q → d.leaving = true →
          ∃ t, exec (.receiveDeclare dt r) s = .next t ∧ knownPeer t f.src = false
            ∧ (∀ x ∈ t.engine.table, x.counterpart ≠ f.src) ∧ hasEvent .peerLost t = true
            ∧ t.link.inbound = s.link.inbound)
      ∧ (∀ q, d.inRange = true → findPeer s f.src = some q → d.leaving = false → q.incarnation ≠ d.incarnation →
          ∃ t, exec (.receiveDeclare dt r) s = .next t ∧ newPeer f.src d p ∈ t.peers
            ∧ (∀ x ∈ t.engine.table, x.counterpart ≠ f.src) ∧ hasEvent .peerLost t = true
            ∧ hasEvent .peerJoined t = true
            ∧ (s.control.station.speaks = true → s.link.inbound.length < 8 → t.link.inbound = s.link.inbound ++ [f]))

/-- A valid ALERT sets the last-alert time (R120) and, as every broadcast passed on, enters the inbound queue in JOINED and
LEAVING, or is dropped and counted where the queue is full (R135, R141). One that began in the window of a directed attempt
also fails that attempt (R130), after it is taken (the model's choice, log entries 2, 6 and 10). -/
def Obligations.AlertReceived : Prop :=
  ∀ (dt rail : Nat) (r : Reception) (f : Frame) (s : State),
    let p := advance dt s
    let seen (q : State) : State := { heard f q with path := { q.path with lastAlert := some q.now } }
    s.control.resetHeld = false → s.control.station.hears = true → classify r = .valid f → f.src ≠ ownAddress s →
    s.link.ackOut = none → f.body = .alert rail →
      (attemptOf s = none →
        (s.control.station.speaks = true → s.link.inbound.length < 8 →
          exec (.receiveAlert dt r) s = .next (settle false p
            { seen p with link := { (heard f p).link with inbound := s.link.inbound ++ [f] } }))
        ∧ (s.control.station.speaks = true → 8 ≤ s.link.inbound.length →
            exec (.receiveAlert dt r) s = .next (settle false p
              { seen p with link := { (heard f p).link with counters := { s.link.counters with
                inboundDrops := min 65535 (s.link.counters.inboundDrops + 1) } } }))
        ∧ (s.control.station.speaks = false → exec (.receiveAlert dt r) s = .next (settle false p (seen p))))
      ∧ (∀ c start, Attempting c start s → c.frame.dst ≠ 0 → s.control.station.speaks = true →
          s.link.inbound.length < 8 →
          let q : State := { p with now := max p.now (c.txEnd start + r.time) }
          q.now ≤ c.txEnd start + 14 + r.time →
          exec (.receiveAlert dt r) s = .next (settle false p (failing c
            { seen q with link := { (heard f q).link with inbound := s.link.inbound ++ [f] } })))

/-- A directed frame for this station from a known source is acknowledged 6 bit times after it and delivered, unless it
repeats the sequence last delivered, which is acknowledged alone; with a full inbound queue it is dropped and counted; one
from an unknown source, for another station or in LISTENING is only heard (R21, R136 to R138). -/
def Obligations.DirectedFrameReceived : Prop :=
  ∀ (dt : Nat) (r : Reception) (f : Frame) (s : State),
    let p := advance dt s
    let h := heard f p
    let acked : State := { h with link := { h.link with ackDue := some ⟨f.src, f.seq, p.now + 6⟩ } }
    Receiving r f s → f.body.isDirected = true →
      (∀ q, f.dst = ownAddress s → s.control.station.speaks = true → findPeer s f.src = some q →
          (s.link.inbound.length < 8 → q.lastIn ≠ some f.seq →
            exec (.receiveDirectedFrame dt r) s = .next (settle false p
              { acked with
                link := { acked.link with inbound := s.link.inbound ++ [f] }
                peers := h.peers.map fun x => if x.addr = f.src then { x with lastIn := some f.seq } else x }))
          ∧ (s.link.inbound.length < 8 → q.lastIn = some f.seq →
              exec (.receiveDirectedFrame dt r) s = .next (settle false p acked))
          ∧ (8 ≤ s.link.inbound.length →
              exec (.receiveDirectedFrame dt r) s = .next (settle false p
                { h with link := { h.link with counters := { s.link.counters with
                  inboundDrops := min 65535 (s.link.counters.inboundDrops + 1) } } })))
      ∧ (f.dst ≠ ownAddress s ∨ s.control.station = .listening ∨ findPeer s f.src = none →
          exec (.receiveDirectedFrame dt r) s = .next (settle false p h))

/-- What an ACK does. In the window of a directed attempt, from its destination, for this station and with its sequence, it
ends the attempt as SENT, whether or not the source still has an entry (the model's reading of R130 and R135 beside R21, log
entry 9): the QUEUED ask that refers to an ASK frame enters ASKED with its deadline the ask timeout from then (R45), the
PROVISIONAL or RAISING record at a GRANT's revision becomes ACTIVE (R67), and the other kinds report to no one (R132). Any
other ACK in the window fails the attempt (R130), and an ACK outside any window is only heard (R135). The window is measured
by the ACK's own bit times (the model's choices, log entries 2 and 6). A frame given up is reported too: its ask ends with
the skip flag (R46), its PROVISIONAL record goes and its RAISING record reverts (R68), a DECLARE marks the declaration
instant (R31) and, the final one, brings the station to OFFLINE, its entries gone with PEER_LOST and a TRIPPED path OPEN
before the end of the happening (R118, R153), and an ALERT leaves the last-alert time as it was (R132). -/
def Obligations.AckReportsAskSent : Prop :=
  (∀ (dt : Nat) (r : Reception) (f : Frame) (s : State),
    let p := advance dt s
    s.control.resetHeld = false → s.control.station.hears = true → s.link.ackOut = none →
    classify r = .valid f → f.body = .ack → f.src ≠ ownAddress s →
      (attemptOf s = none → exec (.receiveAck dt r) s = .next (settle false p (heard f p)))
      ∧ (∀ c start, Attempting c start s →
          let q : State := { p with now := max p.now (c.txEnd start + r.time) }
          c.frame.dst = 0 ∨ c.txEnd start + 14 + r.time < q.now →
          exec (.receiveAck dt r) s = .next (settle false p (heard f q)))
      ∧ (∀ c start, Attempting c start s → c.frame.dst ≠ 0 →
          c.txEnd start + r.time ≤ p.now → p.now ≤ c.txEnd start + 14 + r.time →
          f.dst ≠ ownAddress s ∨ f.src ≠ c.frame.dst ∨ f.seq ≠ c.seq →
          exec (.receiveAck dt r) s = .next (settle false p (failing c (heard f p))))
      ∧ (∀ c start, Attempting c start s → c.frame.dst ≠ 0 → s.control.station.speaks = true →
          c.txEnd start + r.time ≤ p.now → p.now ≤ c.txEnd start + 14 + r.time →
          f.dst = ownAddress s → f.src = c.frame.dst → f.seq = c.seq →
          let h := heard f p
          let sent : State :=
            { h with link := { h.link with
              current := none
              counters := { s.link.counters with framesSent := min 65535 (s.link.counters.framesSent + 1) } } }
          let gives (m : State) : Prop := exec (.receiveAck dt r) s = .next (settle false p m)
          (∀ rid amount minimum id, c.frame.body = .fixed (.ask rid amount minimum id) →
            (∀ a, askOfFrame s c.frame.ref = some a →
              gives { sent with engine := { p.engine with asks := s.engine.asks.map fun b =>
                if b.supplier = a.supplier then { b with state := .asked (p.now + 125 * (cfg s).askTimeout) } else b } })
            ∧ (askOfFrame s c.frame.ref = none → gives sent))
          ∧ (∀ rid id amount v, c.frame.body = .fixed (.grant rid id amount v) →
            (∀ x, findSupply s id = some x → x.isOpenGrant = true → x.revision = v →
              let m := withRecord { x with state := .active } sent
              gives { m with engine := { m.engine with changePending := s.engine.changePending } })
            ∧ ((∀ x, findSupply s id = some x → x.isOpenGrant = false ∨ x.revision ≠ v) → gives sent))
          ∧ (∀ pl, c.frame.body = .fixed pl → 4 ≤ pl.kind → pl.kind ≤ 9 → gives sent)))
    ∧ ∀ (f : OutFrame) (q : State), q.control.station.speaks = true →
      (∀ rid amount minimum id, f.body = .fixed (.ask rid amount minimum id) →
        (∀ a, askOfFrame q f.ref = some a → findAsk q a.supplier = some a →
          ownerGivenUp f q = skipping a.supplier (withoutAsk a q))
        ∧ (askOfFrame q f.ref = none → ownerGivenUp f q = q))
      ∧ (∀ rid id amount v, f.body = .fixed (.grant rid id amount v) →
        (∀ x, findSupply q id = some x → x.state = .provisional → x.revision = v →
          ownerGivenUp f q = withoutRecord x.supplier x.id q)
        ∧ (∀ x a w, findSupply q id = some x → x.state = .raising a w → x.revision = v → a ≠ x.amount →
          ownerGivenUp f q = withRecord { x with amount := a, revision := w, state := .active } q)
        ∧ ((∀ x, findSupply q id = some x → x.isOpenGrant = false ∨ x.revision ≠ v) → ownerGivenUp f q = q))
      ∧ (∀ pl, f.body = .fixed pl → 4 ≤ pl.kind → ownerGivenUp f q = q)
      ∧ (f.body = .declare false → ownerGivenUp f q = { q with engine := { q.engine with lastInstant := some q.now } })
      ∧ (∀ tag, f.body = .declare true → q.host.long = some ⟨.leave, tag⟩ →
          let t := ownerGivenUp f q
          t.control.station = .offline ∧ t.peers = [] ∧ t.host.long = none
            ∧ hasEvent .peerLost t = (hasEvent .peerLost q || decide (q.peers ≠ []))
            ∧ t.path.state = (if q.path.state = .tripped then .opened else q.path.state)
            ∧ t.host.results = q.host.results ++ [⟨tag, 4, .done, []⟩]
            ∧ t.link = { Link.initial with counters := q.link.counters })

/-- A malformed reception is counted and a fragment is not; each leaves the line idle from its end, and one that began in
the window of a directed attempt fails that attempt, which backs off, waits pre-empted behind an ALERT, or is given up
(R130, R131, R133, R134). That it ends no earlier than its bytes after the
attempt, and that the reception is taken before the failing, is the model's choice (log entries 2, 6 and 10). -/
def Obligations.DamagedReceptions : Prop :=
  ∀ (dt : Nat) (r : Reception) (s : State),
    let p := advance dt s
    let counted : Counters := { s.link.counters with crcErrors := min 65535 (s.link.counters.crcErrors + 1) }
    s.control.resetHeld = false → s.control.station.hears = true → s.link.ackOut = none →
      (attemptOf s = none → classify r = .malformed →
          exec (.malformedReception dt r) s = .next (settle false p
            { p with link := { p.link with idleSince := some p.now, counters := counted } }))
      ∧ (attemptOf s = none → classify r = .fragment →
          exec (.fragment dt r) s = .next (settle false p { p with link := { p.link with idleSince := some p.now } }))
      ∧ (∀ c start, Attempting c start s → c.frame.dst ≠ 0 →
          let e := max p.now (c.txEnd start + r.time)
          e ≤ c.txEnd start + 14 + r.time →
          (classify r = .malformed →
            exec (.malformedReception dt r) s = .next (settle false p (failing c
              { p with now := e, link := { p.link with idleSince := some e, counters := counted } })))
          ∧ (classify r = .fragment →
              exec (.fragment dt r) s = .next (settle false p (failing c
                { p with now := e, link := { p.link with idleSince := some e } }))))

/-- A valid frame of any kind with the station's own address as its source puts a listening, joined or leaving station into
DUPLICATE: no record, no ask, role IDLE, an empty link with its counters kept, the Peer Table as it stood, a long request
ABORTED, ADDRESS_CONFLICT and STATE_CHANGED (R92, R106, R139, R142, R155). -/
def Obligations.AddressConflictStops : Prop :=
  ∀ (dt : Nat) (r : Reception) (f : Frame) (s : State),
    s.control.resetHeld = false → s.control.station.hears = true → classify r = .valid f → f.src = ownAddress s →
    ∃ t, exec (receiveCommand dt r f.body) s = .next t
      ∧ t.control.station = .duplicate ∧ t.engine.table = [] ∧ t.engine.asks = [] ∧ t.engine.role = .idle
      ∧ t.link = { Link.initial with counters := s.link.counters } ∧ t.peers = s.peers ∧ t.host.long = none
      ∧ t.host.results = s.host.results ++
          (match s.host.long with
            | some l => [⟨l.tag, l.kind.byte, .aborted, []⟩]
            | none => [])
      ∧ hasEvent .addressConflict t = true ∧ hasEvent .stateChanged t = true

/-! ### Transmissions -/

/-- A decided ACK begins, not before its time, and occupies the line (R136); a collision ends the ACK being driven, or fails
the attempt being driven, which backs off, waits pre-empted or is given up; each is counted (R125, R131, R133). At the
eighth failure a DECLARE or an ALERT is given up without LINK_GIVEUP: no frame is current, the give-up is counted, and a
DECLARE marks the declaration instant, the final one on the way to OFFLINE with its LEAVE completed, the entries gone with
PEER_LOST and a TRIPPED path OPEN (R31, R118, R131, R132, R153). The clock is brought up to the ACK's begin (the model's
choice, log entry 2). -/
def Obligations.AckAndCollision : Prop :=
  ∀ (dt : Nat) (s : State),
    let p := advance dt s
    let counted : Counters := { s.link.counters with collisions := min 65535 (s.link.counters.collisions + 1) }
    s.control.resetHeld = false →
      (∀ a, s.link.ackDue = some a → s.link.ackOut = none →
          exec (.ackTransmit dt) s = .next (settle false p
            { p with
              now := max p.now a.start
              link := { p.link with
                ackDue := none, ackOut := some { a with start := max p.now a.start }, idleSince := none } }))
      ∧ (∀ a, s.link.ackOut = some a → s.now + dt < a.start + 56 →
          exec (.collision dt) s = .next (settle false p
            { p with link := { p.link with ackOut := none, idleSince := some p.now, counters := counted } }))
      ∧ (∀ c start, Attempting c start s → s.link.ackOut = none → s.now + dt ≤ c.txEnd start →
          let t : State := { p with link := { p.link with idleSince := some p.now, counters := counted } }
          let ended : State := { t with link := { t.link with
            current := none, counters := { counted with giveUps := min 65535 (s.link.counters.giveUps + 1) } } }
          exec (.collision dt) s = .next (settle false p (failing c t))
          ∧ (c.failures + 1 < 8 → s.link.urgent = [] →
              exec (.collision dt) s = .next (settle false p
                { t with link := { t.link with
                  current := some { c with failures := c.failures + 1, phase := .backoff } } }))
          ∧ (7 ≤ c.failures → c.frame.dst = 0 →
              (c.frame.body = .declare false →
                exec (.collision dt) s = .next (settle false p
                  { ended with engine := { p.engine with lastInstant := some p.now } }))
              ∧ (∀ rail, c.frame.body = .fixed (.alert rail) →
                exec (.collision dt) s = .next (settle false p ended))
              ∧ (∀ tag, c.frame.body = .declare true → s.host.long = some ⟨.leave, tag⟩ →
                ∃ u, exec (.collision dt) s = .next u ∧ EntersOffline s u ∧ u.host.long = none
                  ∧ u.host.results = s.host.results ++ [⟨tag, 4, .done, []⟩]
                  ∧ u.link.counters = ended.link.counters)))

/-- The quiet gap of the candidate ends and its first attempt begins: 16 bit times for an ALERT at the urgent head, 24 + 4k
for the normal head, which takes the next sequence of its destination if it is directed, and carries the DECLARE composed
then if it is a DECLARE; a directed frame whose destination has no entry is given up; a pre-empted frame goes on with its
next attempt (R133). The backoff of the current frame ends with its next attempt (R29, R32, R127, R128, R131, R137). The
draw k is an operand, and the clock is brought up to the gap's end (the model's choices, log entries 2 and 5); the entry of
a queued frame's destination is looked for when the gap ends (log entry 31), and a pre-empted or current frame runs on
whether or not its destination has an entry (R131's last sentence; for a pre-empted one the model's reading, log entry 8).
That a DECLARE attempt ends the pending change before the place it frees goes to an owed notice is the model's choice (log
entry 37). -/
def Obligations.AttemptBegins : Prop :=
  ∀ (dt k since : Nat) (s : State),
    let p := advance dt s
    let e := max p.now (since + 24 + 4 * k)
    let u := max p.now (since + 16)
    s.control.resetHeld = false → s.control.station.speaks = true → s.link.ackOut = none →
    s.link.idleSince = some since → k ≤ 15 →
      (∀ f rest pl q, s.link.current = none → s.link.urgent = [] → s.link.preempted = none →
          s.link.normal = f :: rest → f.dst ≠ 0 → f.body = .fixed pl → findPeer s f.dst = some q →
          exec (.quietGapEnd dt k) s = .next (settle false p
            { p with
              now := e
              link := { p.link with
                normal := rest, current := some ⟨f, q.nextOut, 1, 0, .attempting e, pl⟩, idleSince := none }
              peers := s.peers.map fun x => if x.addr = f.dst then { x with nextOut := x.nextOut + 1 } else x }))
      ∧ (∀ rest final ref, s.link.current = none → s.link.urgent = [] → s.link.preempted = none →
          s.link.normal = ⟨0, .declare final, ref⟩ :: rest →
          exec (.quietGapEnd dt k) s = .next (settle false p
            { p with
              now := e
              engine := { p.engine with changePending := false }
              link := { p.link with
                normal := rest
                current := some
                  ⟨⟨0, .declare final, ref⟩, 0, 1, 0, .attempting e, .declare (composeDeclare final s)⟩
                idleSince := none } }))
      ∧ (∀ rail rest, s.link.current = none → s.link.urgent = ⟨0, .fixed (.alert rail), 0⟩ :: rest →
          exec (.quietGapEnd dt k) s = .next (settle false p
            { p with
              now := u
              link := { p.link with
                urgent := rest
                current := some ⟨⟨0, .fixed (.alert rail), 0⟩, 0, 1, 0, .attempting u, .alert rail⟩
                idleSince := none } }))
      ∧ (∀ f rest pl, s.link.current = none → s.link.urgent = [] → s.link.preempted = none →
          s.link.normal = f :: rest → f.dst ≠ 0 → f.body = .fixed pl → findPeer s f.dst = none →
          exec (.quietGapEnd dt k) s = .next (settle false p (ownerGivenUp f
            { p with
              now := e
              link := { p.link with
                normal := rest
                counters := { s.link.counters with giveUps := min 65535 (s.link.counters.giveUps + 1) } }
              host := { p.host with flags := s.host.flags ||| Event.linkGiveup.bit } })))
      ∧ (∀ c pl, s.link.current = none → s.link.urgent = [] → s.link.preempted = some c → c.frame.body = .fixed pl →
          exec (.quietGapEnd dt k) s = .next (settle false p
            { p with
              now := e
              link := { p.link with
                preempted := none
                current := some { c with attempts := c.attempts + 1, phase := .attempting e, content := pl }
                idleSince := none } }))
      ∧ (∀ c final, s.link.current = none → s.link.urgent = [] → s.link.preempted = some c →
          c.frame.body = .declare final →
          exec (.quietGapEnd dt k) s = .next (settle false p
            { p with
              now := e
              engine := { p.engine with changePending := false }
              link := { p.link with
                preempted := none
                current := some { c with
                  attempts := c.attempts + 1, phase := .attempting e, content := .declare (composeDeclare final s) }
                idleSince := none } }))
      ∧ (∀ c pl, s.link.current = some c → c.phase = .backoff → c.frame.body = .fixed pl → c.frame.isUrgent = false →
          exec (.retryGapEnd dt k) s = .next (settle false p
            { p with
              now := e
              link := { p.link with
                current := some { c with attempts := c.attempts + 1, phase := .attempting e, content := pl }
                idleSince := none } }))
      ∧ (∀ c final, s.link.current = some c → c.phase = .backoff → c.frame.body = .declare final →
          exec (.retryGapEnd dt k) s = .next (settle false p
            { p with
              now := e
              engine := { p.engine with changePending := false }
              link := { p.link with
                current := some { c with
                  attempts := c.attempts + 1, phase := .attempting e, content := .declare (composeDeclare final s) }
                idleSince := none } }))
      ∧ (∀ c rail, s.link.current = some c → c.phase = .backoff → c.frame.body = .fixed (.alert rail) → k ≤ 7 →
          exec (.retryGapEnd dt k) s = .next (settle false p
            { p with
              now := max p.now (since + 16 + k)
              link := { p.link with
                current := some { c with
                  attempts := c.attempts + 1, phase := .attempting (max p.now (since + 16 + k)), content := .alert rail }
                idleSince := none } }))

/-- A DECLARE or ALERT transmitted whole is SENT: the declaration instant, or the last-alert time, is the end of the
transmission; a final DECLARE takes the station to OFFLINE with its LEAVE completed, the entries gone with PEER_LOST and a
TRIPPED path OPEN (R31, R118, R129, R132, R153). A directed
attempt whose window closes unanswered fails: it backs off, waits pre-empted, or at the eighth failure is given up (R130,
R131, R133).
The clock is brought up to the end of the transmission or of the window (the model's choice, log entry 2). -/
def Obligations.AttemptEnds : Prop :=
  ∀ (dt start : Nat) (c : Current) (s : State),
    let p := advance dt s
    let e := max p.now (c.txEnd start)
    let w := max p.now (c.txEnd start + 14)
    let sent : State :=
      { p with
        now := e
        link := { p.link with
          current := none, idleSince := some (c.txEnd start)
          counters := { s.link.counters with framesSent := min 65535 (s.link.counters.framesSent + 1) } } }
    Attempting c start s → s.link.ackOut = none →
      (c.frame.dst = 0 → c.frame.body = .declare false →
          exec (.broadcastTransmissionEnd dt) s = .next (settle false p
            { sent with engine := { p.engine with lastInstant := some e } }))
      ∧ (∀ rail, c.frame.dst = 0 → c.frame.body = .fixed (.alert rail) →
          exec (.broadcastTransmissionEnd dt) s = .next (settle false p
            { sent with path := { p.path with lastAlert := some e } }))
      ∧ (∀ tag, c.frame.dst = 0 → c.frame.body = .declare true → s.host.long = some ⟨.leave, tag⟩ →
          ∃ t, exec (.broadcastTransmissionEnd dt) s = .next t ∧ EntersOffline s t ∧ t.host.long = none
            ∧ t.host.results = s.host.results ++ [⟨tag, 4, .done, []⟩]
            ∧ t.link.counters = sent.link.counters)
      ∧ (c.frame.dst ≠ 0 →
          exec (.ackWindowClose dt) s = .next (settle false p (failing c
            { p with now := w, link := { p.link with idleSince := some (c.txEnd start) } })))

/-! ### Frames consumed -/

/-- An ASK that a SUPPLIER can meet is granted: a new contract is recorded PROVISIONAL under the next free id, a raise turns
the ACTIVE record RAISING with its prior values, and the GRANT is placed (R11, R63 to R66). -/
def Obligations.AskGranted : Prop :=
  ∀ (dt rid asked minimum id : Nat) (f : Frame) (rest : List Frame) (s : State),
    let p := advance dt s
    let own := ownAddress s
    Consuming f rest s → f.body = .ask rid asked minimum id → s.engine.role = .supplier → (minimum : Int) ≤ free s →
      (concernedRecord f.src id s = none → s.engine.table.length < 16 →
          let amount := min (min asked (free s).toNat) 400
          let new := allocateId s 17 s.engine.nextContract
          let m := withFrame f.src (.grant rid new amount 0)
            (withNewRecord ⟨own, new, .supply, f.src, amount, 0, .provisional, none, 0⟩ (consumed rest p))
          exec (.consumeAsk dt) s = .next (settle false p
            { m with engine := { m.engine with nextContract := if new = 255 then 1 else new + 1 } }))
      ∧ (∀ r, concernedRecord f.src id s = some r → findRecord r.supplier r.id s.engine.table = some r →
          r.state = .active → minimum ≤ 400 - r.amount →
          let amount := r.amount + min (min asked (free s).toNat) (400 - r.amount)
          exec (.consumeAsk dt) s = .next (settle false p
            (withFrame f.src (.grant rid r.id amount (r.revision + 1))
              (withRecord { r with
                amount := amount, revision := r.revision + 1, state := .raising r.amount r.revision }
                (consumed rest p)))))

/-- An ASK that is not granted is answered by the first test of R64 that applies: DECLINE WRONG_ROLE (2), DRAINING (3) or
TABLE_FULL (4), HOLD while a GRANT is unresolved, DECLINE NO_BUDGET (1); nothing else changes. -/
def Obligations.AskNotGranted : Prop :=
  ∀ (dt rid asked minimum id : Nat) (f : Frame) (rest : List Frame) (s : State),
    let p := advance dt s
    let r := concernedRecord f.src id s
    let answered (x : Payload) : Prop :=
      exec (.consumeAsk dt) s = .next (settle false p (withFrame f.src x (consumed rest p)))
    Consuming f rest s → f.body = .ask rid asked minimum id →
      (s.engine.role.value ≠ .supplier → s.engine.role.value ≠ .drainingSupply → answered (.decline rid 2))
      ∧ (s.engine.role.value = .drainingSupply → answered (.decline rid 3))
      ∧ (s.engine.role = .supplier → r = none → 16 ≤ s.engine.table.length → answered (.decline rid 4))
      ∧ (∀ x, s.engine.role = .supplier → r = some x → x.isOpenGrant = true →
          answered (.hold rid (cfg s).holdTime))
      ∧ (∀ x, s.engine.role = .supplier → r = some x → x.isOpenGrant = false → x.isRecalling = true →
          answered (.decline rid 1))
      ∧ (s.engine.role = .supplier → r = none → s.engine.table.length < 16 → free s < minimum →
          (if s.engine.table.any (fun x => x.isSupply && x.isOpenGrant) = true
            then answered (.hold rid (cfg s).holdTime) else answered (.decline rid 1)))
      ∧ (∀ x, s.engine.role = .supplier → r = some x → x.isOpenGrant = false → x.isRecalling = false →
          free s < minimum ∨ 400 - x.amount < minimum →
          (if free s < minimum ∧ minimum ≤ 400 - x.amount
              ∧ s.engine.table.any (fun y => y.isSupply && y.isOpenGrant) = true
            then answered (.hold rid (cfg s).holdTime) else answered (.decline rid 1)))

/-- A GRANT that matches the pending ask ends it and records the contract ACTIVE, or gives the raised record its amount and
revision; one that matches a raise but is not newer is handled as a late one, and one that names another contract is
released, each with the skip flag. One that matches no ask is late: an unknown contract is released, an ACTIVE one is
answered with a TRIM at a revision newer than both, which its record takes (so CONTRACTS_CHANGED is set, and no change is
pending by it, R16, R32), and a CLOSING one is left (R53, R54). -/
def Obligations.GrantConsumed : Prop :=
  ∀ (dt rid id amount : Nat) (v : Revision) (f : Frame) (rest : List Frame) (s : State),
    let p := advance dt s
    Consuming f rest s → f.body = .grant rid id amount v →
      (∀ a, matchingAsk s f.src rid = some a → findAsk s f.src = some a →
          (a.raised = none →
            exec (.consumeGrant dt) s = .next (settle false p
              (withNewRecord ⟨f.src, id, .take, f.src, amount, v, .active, none, 0⟩
                (withoutAsk a (consumed rest p)))))
          ∧ (∀ r, a.raised = some id → findTake s f.src id = some r → newer v r.revision = true →
              let m := withRecord { r with amount := amount, revision := v } (withoutAsk a (consumed rest p))
              exec (.consumeGrant dt) s = .next (settle false p
                { m with engine := { m.engine with
                  changePending := decide (r.amount ≠ amount) || s.engine.changePending } }))
          ∧ (∀ r, a.raised = some id → findTake s f.src id = some r → newer v r.revision = false →
              exec (.consumeGrant dt) s = .next (settle false p
                (lateGrant f.src id v (skipping f.src (withoutAsk a (consumed rest p))))))
          ∧ (∀ i, a.raised = some i → id ≠ i →
              exec (.consumeGrant dt) s = .next (settle false p
                (withFrame f.src (.release f.src id) (skipping f.src (withoutAsk a (consumed rest p)))))))
      ∧ (matchingAsk s f.src rid = none → findTake s f.src id = none →
          exec (.consumeGrant dt) s = .next (settle false p
            (withFrame f.src (.release f.src id) (consumed rest p))))
      ∧ (∀ r, matchingAsk s f.src rid = none → findTake s f.src id = some r → r.state = .active →
          let w := newest v r.revision + 1
          let m := withRecord { r with revision := w } (consumed rest p)
          exec (.consumeGrant dt) s = .next (settle false p (withFrame f.src (.trim id r.amount w)
            { m with engine := { m.engine with changePending := s.engine.changePending } })))
      ∧ (∀ r, matchingAsk s f.src rid = none → findTake s f.src id = some r → r.state ≠ .active →
          exec (.consumeGrant dt) s = .next (settle false p (consumed rest p)))

/-- A HOLD that matches a pending ask holds it for the time carried and counts, up to the third; the fourth ends the ask with
the skip flag; one that matches none is disregarded (R28, R48, R51, R52). -/
def Obligations.HoldConsumed : Prop :=
  ∀ (dt rid time : Nat) (f : Frame) (rest : List Frame) (s : State),
    let p := advance dt s
    Consuming f rest s → f.body = .hold rid time →
      (∀ a, matchingAsk s f.src rid = some a → findAsk s f.src = some a → a.holds < 3 →
          exec (.consumeHold dt) s = .next (settle false p
            { consumed rest p with
              engine := { p.engine with asks := s.engine.asks.map fun b =>
                if b.supplier = f.src then
                  { b with state := .held (p.now + 125 * time), holds := b.holds + 1 } else b }
              link := (withoutAsk a (consumed rest p)).link }))
      ∧ (∀ a, matchingAsk s f.src rid = some a → findAsk s f.src = some a → 3 ≤ a.holds →
          exec (.consumeHold dt) s = .next (settle false p (skipping f.src (withoutAsk a (consumed rest p)))))
      ∧ (matchingAsk s f.src rid = none → exec (.consumeHold dt) s = .next (settle false p (consumed rest p)))

/-- A DECLINE that matches a pending ask ends the ask in any of its states and sets the supplier's skip flag, whatever its
reason; the ASK frame of a QUEUED ask is withdrawn if it has not begun its first attempt and runs on otherwise; one that
matches none is disregarded (R50, with R52 for the frame). -/
def Obligations.DeclineEndsAsk : Prop :=
  ∀ (dt rid reason : Nat) (f : Frame) (rest : List Frame) (s : State),
    let p := advance dt s
    Consuming f rest s → f.body = .decline rid reason →
      (∀ a, matchingAsk s f.src rid = some a → findAsk s f.src = some a →
          exec (.consumeDecline dt) s = .next (settle false p (skipping f.src (withoutAsk a (consumed rest p)))))
      ∧ (matchingAsk s f.src rid = none → exec (.consumeDecline dt) s = .next (settle false p (consumed rest p)))

/-- A taker's TRIM or YIELD to amount a at revision v (R74, R75, R78, R79): an unknown contract with an amount is released;
a lower amount at a revision newer than or equal lowers the record, which is then ACTIVE, or ends it at 0; a recall is
resolved with the lower of the two amounts at the newer revision; anything else is disregarded. -/
def Obligations.ReductionConsumed : Prop :=
  ∀ (dt id a : Nat) (v : Revision) (i : Instr) (f : Frame) (rest : List Frame) (s : State),
    let p := advance dt s
    let gives (m : State) : Prop := exec i s = .next (settle false p m)
    let c := consumed rest p
    Consuming f rest s →
    (i = .consumeTrim dt ∧ f.body = .trim id a v) ∨ (i = .consumeYield dt ∧ f.body = .yield id a v) →
      (namedSupply f.src id s = none → a = 0 → gives c)
      ∧ (namedSupply f.src id s = none → 0 < a → gives (withFrame f.src (.release (ownAddress s) id) c))
      ∧ (∀ r, namedSupply f.src id s = some r → r.isClosing = true → gives c)
      ∧ (∀ r, namedSupply f.src id s = some r → r.isClosing = false → r.isRecalling = false →
          (newerOrEqual v r.revision = true → 0 < a → a < r.amount →
            gives (withRecord { r with amount := a, revision := v, state := .active } c))
          ∧ (newerOrEqual v r.revision = true → a = 0 → 0 < r.amount → gives (withoutRecord r.supplier r.id c))
          ∧ (newerOrEqual v r.revision = false ∨ r.amount ≤ a → gives c))
      ∧ (∀ r target tv deadline, namedSupply f.src id s = some r → r.state = .recalling target tv deadline →
          ((newerOrEqual v tv || (v == r.revision && decide (a ≤ target))) = false → gives c)
          ∧ ((newerOrEqual v tv || (v == r.revision && decide (a ≤ target))) = true → min a r.amount = 0 →
              gives (withoutRecord r.supplier r.id c))
          ∧ ((newerOrEqual v tv || (v == r.revision && decide (a ≤ target))) = true → 0 < a → a < r.amount →
              gives (withRecord { r with
                amount := a, revision := newest v tv, state := .active
                owed := if r.owed = some .recall then none else r.owed } c))
          ∧ ((newerOrEqual v tv || (v == r.revision && decide (a ≤ target))) = true → 0 < r.amount → r.amount ≤ a →
              let m := withRecord { r with
                revision := newest v tv, state := .active
                owed := if r.owed = some .recall then none else r.owed } c
              gives { m with engine := { m.engine with changePending := s.engine.changePending } }))

/-- A RECALL of an unknown contract is answered with RELEASE, one of a CLOSING contract is disregarded, and one of an ACTIVE
contract is answered with YIELD: at the target or below where its revision is newer than or equal, ending the contract at
target 0 with any raise that names it, and otherwise at the record as it stands (R52, R56, R57), where the tables are sound.
CONTRACTS_CHANGED is set where the record went or changed in amount or revision, and a change is pending where it went or
changed its amount (R16, R32); nothing else changes before the end of the happening. -/
def Obligations.RecallConsumed : Prop :=
  ∀ (dt id target : Nat) (v : Revision) (f : Frame) (rest : List Frame) (s : State),
    let p := advance dt s
    Consuming f rest s → f.body = .recall id target v →
      (findTake s f.src id = none →
          exec (.consumeRecall dt) s = .next (settle true p
            (withFrame f.src (.release f.src id) (consumed rest p))))
      ∧ (∀ r, findTake s f.src id = some r → r.state ≠ .active →
          exec (.consumeRecall dt) s = .next (settle true p (consumed rest p)))
      ∧ (∀ r, findTake s f.src id = some r → r.state = .active → TablesSound s →
          let c := consumed rest p
          let answered (a : Nat) (w : Revision) (m : State) : Prop :=
            exec (.consumeRecall dt) s = .next (settle true p (withFrame f.src (.yield id a w) m))
          (newerOrEqual v r.revision = true → target ≠ 0 →
              let a := min r.amount target
              let m := withRecord { r with amount := a, revision := v } c
              answered a v { m with
                engine := { m.engine with changePending := decide (r.amount ≠ a) || s.engine.changePending }
                host := { m.host with
                  flags := if r.amount = a ∧ r.revision = v then s.host.flags else m.host.flags } })
          ∧ (newerOrEqual v r.revision = true → target = 0 → raiseNames s r = false →
              answered 0 v (withoutRecord f.src id c))
          ∧ (∀ a, newerOrEqual v r.revision = true → target = 0 → raiseNames s r = true → findAsk s f.src = some a →
              answered 0 v (withoutAsk a (withoutRecord f.src id c)))
          ∧ (newerOrEqual v r.revision = false → answered r.amount r.revision c))

/-- A RELEASE from the supplier of a taker-side contract, or from the taker of a supplier-side one, ends the record in
whatever state, with its owed notice unsent and any raise that names it; every other RELEASE is disregarded (R58, R77). -/
def Obligations.ReleaseConsumed : Prop :=
  ∀ (dt supplier id : Nat) (f : Frame) (rest : List Frame) (s : State),
    let p := advance dt s
    let c := consumed rest p
    Consuming f rest s → f.body = .release supplier id → f.src ≠ ownAddress s →
      (∀ r, supplier = ownAddress s → namedSupply f.src id s = some r →
          exec (.consumeRelease dt) s = .next (settle true p (withoutRecord supplier id c)))
      ∧ (supplier = ownAddress s → namedSupply f.src id s = none →
          exec (.consumeRelease dt) s = .next (settle true p c))
      ∧ (∀ r, supplier = f.src → findTake s supplier id = some r →
          (raiseNames s r = false →
            exec (.consumeRelease dt) s = .next (settle true p (withoutRecord supplier id c)))
          ∧ (∀ a, raiseNames s r = true → findAsk s supplier = some a →
              exec (.consumeRelease dt) s
                = .next (settle true p (withoutAsk a (withoutRecord supplier id c)))))
      ∧ (supplier = f.src → findTake s supplier id = none →
          exec (.consumeRelease dt) s = .next (settle true p c))
      ∧ (supplier ≠ f.src → supplier ≠ ownAddress s →
          exec (.consumeRelease dt) s = .next (settle true p c))

/-- Reconciliation of a DECLARE against tables in order, record by record (R69, R94 to R100): records with other
counterparts and CLOSING records stand; a taker's summary confirms an unresolved grant, which is then settled, and one that
is not confirmed stands; a record left out counts a miss and goes at the second; a listed ACTIVE record is settled, or
stands with its amount; a listed recall is resolved by a summary that reaches it, and stands otherwise; each listed record
has its misses cleared; the first unknown contract is answered with RELEASE, its frame the last of the normal queue. No
record is added and the order stands; a raise goes, with its ASK frame where that still waits, exactly with the record it
names; CONTRACTS_CHANGED is set exactly where a record went or changed in amount, revision or state, and a change is pending
exactly where a record went or changed its amount, or one was pending (R95). Nothing else changes before the end of the
happening. -/
def Obligations.DeclareConsumed : Prop :=
  ∀ (dt : Nat) (d : Declare) (q : Peer) (f : Frame) (rest : List Frame) (s : State),
    let p := advance dt s
    let listed (r : Record) : Option Summary :=
      (summaryFor f.src d s r).filter fun x => !farApart x.revision r.revision
    TablesOrdered s → s.control.resetHeld = false → s.control.station.speaks = true → normalRoom s = true →
    s.link.inbound = f :: rest → f.body = .declare d → findPeer s f.src = some q → q.incarnation = d.incarnation →
      let key (r : Record) : Nat × Nat × Side × Nat := (r.supplier, r.id, r.side, r.counterpart)
      let unknown : Option Summary := d.summaries.find? fun x => decide (x.counterpart = ownAddress s
        ∧ ∀ r ∈ s.engine.table, ¬ (r.counterpart = f.src ∧ r.supplier = keySupplier f.src d s ∧ r.id = x.id))
      ∃ m, exec (.consumeDeclare dt) s = .next (settle true p m)
        ∧ m = { p with
            engine := { p.engine with
              table := m.engine.table, asks := m.engine.asks, changePending := m.engine.changePending }
            link := { p.link with inbound := rest, normal := m.link.normal }
            host := { p.host with flags := m.host.flags } }
        ∧ (m.engine.table.map key).Sublist (s.engine.table.map key)
        ∧ m.engine.asks = (s.engine.asks.filter fun a => decide (∀ r ∈ s.engine.table,
            r.side = .take → r.supplier = a.supplier → a.raised = some r.id → key r ∈ m.engine.table.map key))
        ∧ m.link.normal = (s.link.normal.filter fun g => decide (∀ a ∈ s.engine.asks,
              a ∈ m.engine.asks ∨ a.state ≠ .queued g.ref))
            ++ (match unknown with
              | some x => [⟨f.src, .fixed (.release (keySupplier f.src d s) x.id), 0⟩]
              | none => [])
        ∧ (let same := ∀ r ∈ s.engine.table, ∃ y ∈ m.engine.table, key y = key r
              ∧ y.amount = r.amount ∧ y.revision = r.revision ∧ y.state.code = r.state.code
          (same → m.host.flags = s.host.flags)
            ∧ (¬ same → m.host.flags = s.host.flags ||| Event.contractsChanged.bit))
        ∧ (let same := ∀ r ∈ s.engine.table, ∃ y ∈ m.engine.table, key y = key r ∧ y.amount = r.amount
          (same → m.engine.changePending = s.engine.changePending) ∧ (¬ same → m.engine.changePending = true))
        ∧ (∀ r ∈ s.engine.table, r.counterpart ≠ f.src → r ∈ m.engine.table)
        ∧ (∀ r ∈ s.engine.table, r.state = .closing → r ∈ m.engine.table)
        ∧ (∀ r ∈ s.engine.table, r.counterpart = f.src → r.isActive = true ∨ r.isRecalling = true →
            listed r = none →
              (r.miss = 0 → { r with miss := 1 } ∈ m.engine.table)
              ∧ (1 ≤ r.miss → ∀ x ∈ m.engine.table, ¬ (x.supplier = r.supplier ∧ x.id = r.id)))
        ∧ (∀ r ∈ s.engine.table, ∀ x, r.counterpart = f.src → r.isActive = true → listed r = some x →
              (newerOrEqual x.revision r.revision = true → x.amount < r.amount →
                { r with miss := 0, amount := x.amount, revision := x.revision } ∈ m.engine.table)
              ∧ (newer x.revision r.revision = true → r.amount ≤ x.amount → raiseNames s r = false →
                  { r with miss := 0, revision := x.revision } ∈ m.engine.table)
              ∧ (newer x.revision r.revision = true → r.amount ≤ x.amount → raiseNames s r = true →
                  { r with miss := 0 } ∈ m.engine.table)
              ∧ (x.revision = r.revision → r.amount ≤ x.amount → { r with miss := 0 } ∈ m.engine.table)
              ∧ (newerOrEqual x.revision r.revision = false → { r with miss := 0 } ∈ m.engine.table))
        ∧ (∀ r ∈ s.engine.table, ∀ x, r.counterpart = f.src → r.isRecalling = true → listed r = some x →
            resolves x.amount x.revision r = false → { r with miss := 0 } ∈ m.engine.table)
        ∧ (∀ r ∈ s.engine.table, ∀ x target tv deadline, r.counterpart = f.src →
            r.state = .recalling target tv deadline → listed r = some x → resolves x.amount x.revision r = true →
              (0 < min x.amount r.amount →
                { r with
                  miss := 0, amount := min x.amount r.amount, revision := newest x.revision tv, state := .active
                  owed := if r.owed = some .recall then none else r.owed } ∈ m.engine.table)
              ∧ (min x.amount r.amount = 0 → ∀ y ∈ m.engine.table, ¬ (y.supplier = r.supplier ∧ y.id = r.id)))
        ∧ (∀ r ∈ s.engine.table, r.counterpart = f.src → r.isOpenGrant = true →
            (∀ x, r.side = .supply → d.role ≠ 2 → d.role ≠ 4 → summaryFor f.src d s r = some x →
              newerOrEqual x.revision r.revision = true →
                { r with
                  miss := 0, amount := min x.amount r.amount, revision := x.revision, state := .active }
                  ∈ m.engine.table)
            ∧ (r.side = .take ∨ d.role = 2 ∨ d.role = 4
                ∨ (∀ x, summaryFor f.src d s r = some x → newerOrEqual x.revision r.revision = false) →
                r ∈ m.engine.table))

/-- A consumed ALERT sets ALERT in every role; in role TAKER of a sheddable station it also sheds: every ACTIVE record is
CLOSING with RELEASE decided, every ask removed, and asking suspended for the alert holdoff (R121 to R123). -/
def Obligations.AlertConsumed : Prop :=
  ∀ (dt rail : Nat) (f : Frame) (rest : List Frame) (s : State),
    let p := advance dt s
    let c := consumed rest p
    let told : State := { c with host := { p.host with flags := s.host.flags ||| Event.alert.bit } }
    TablesOrdered s → s.control.resetHeld = false → s.control.station.speaks = true → normalRoom s = true →
    s.link.inbound = f :: rest → f.body = .alert rail →
      (s.engine.role ≠ .taker ∨ (cfg s).sheddable = false →
          exec (.consumeAlert dt) s = .next (settle true p told))
      ∧ (s.engine.role = .taker → (cfg s).sheddable = true →
          let m := withoutAsks (withTakesClosed told)
          exec (.consumeAlert dt) s = .next (settle true p
            { m with engine := { m.engine with suspendEnd := some (p.now + 125 * (cfg s).alertHoldoff) } }))

/-! ### Timers -/

/-- An entry not heard for 2 declared periods becomes SILENT, and after 3 it is lost with its records and its ask
(R25, R27, R101, R102). The clock is
brought up to the threshold (the model's choice, log entry 2). -/
def Obligations.PeerTimersEnd : Prop :=
  ∀ (dt a : Nat) (q : Peer) (s : State),
    let p := advance dt s
    s.control.resetHeld = false → s.control.station.hears = true → findPeer s a = some q →
      (q.liveness = .active →
          exec (.peerSilent dt a) s = .next (settle false p
            { reach (q.lastHeard + 2 * (1250 * q.period)) p with
              peers := s.peers.map fun x => if x.addr = a then { x with liveness := .silent } else x }))
      ∧ ∃ t, exec (.peerLostThreshold dt a) s = .next t
          ∧ t.now = max p.now (q.lastHeard + 3 * (1250 * q.period))
          ∧ t.peers = s.peers.filter (fun x => x.addr ≠ a) ∧ (∀ r ∈ t.engine.table, r.counterpart ≠ a)
          ∧ (∀ x ∈ t.engine.asks, x.supplier ≠ a) ∧ hasEvent .peerLost t = true

/-- The deadline of an ASKED ask ends it with the skip flag; a GRANT consumed before it ends the ask, so that no deadline
remains; a GRANT after it is late, and a HOLD or DECLINE after it is disregarded (R47, with R54 for the late GRANT). -/
def Obligations.AskDeadlineEndsAsk : Prop :=
  ∀ (dt a d : Nat) (x : Ask) (s : State),
    let p := advance dt s
    s.control.resetHeld = false →
      (findAsk s a = some x → x.state = .asked d → d ≤ p.now →
          let m := skipping a (withoutAsk x p)
          exec (.askTimeout dt a) s = .next (settle false p m) ∧ (∀ rid, matchingAsk m a rid = none)
            ∧ m.link.normal = s.link.normal)
      ∧ (∀ f rest, Consuming f rest s →
          (∀ rid id amount v x, f.body = .grant rid id amount v → matchingAsk s f.src rid = some x →
            ∃ m, exec (.consumeGrant dt) s = .next (settle false p m) ∧ findAsk m f.src = none)
          ∧ (∀ rid id amount v, f.body = .grant rid id amount v → matchingAsk s f.src rid = none →
            exec (.consumeGrant dt) s = .next (settle false p (lateGrant f.src id v (consumed rest p))))
          ∧ (∀ rid time, f.body = .hold rid time → matchingAsk s f.src rid = none →
              exec (.consumeHold dt) s = .next (settle false p (consumed rest p)))
          ∧ (∀ rid reason, f.body = .decline rid reason → matchingAsk s f.src rid = none →
              exec (.consumeDecline dt) s = .next (settle false p (consumed rest p))))

/-- An ask's deadline ends it with the skip flag (R47); the end of a hold leaves the ask waiting for a place to be asked
again (R49); a recall deadline closes its record with RELEASE decided (R76); the alert suspension ends (R123). Each is taken
no earlier than its time, the clock brought up to it (the model's choice, log entry 2). -/
def Obligations.EngineTimersEnd : Prop :=
  ∀ (dt d : Nat) (s : State),
    let p := advance dt s
    s.control.resetHeld = false →
      (∀ a x, findAsk s a = some x → x.state = .asked d →
          exec (.askTimeout dt a) s = .next (settle false p (skipping a (withoutAsk x (reach d p)))))
      ∧ (∀ a x, findAsk s a = some x → x.state = .held d →
          exec (.holdEnd dt a) s = .next (settle false p
            { reach d p with engine := { p.engine with asks := s.engine.asks.map fun y =>
              if y.supplier = a then { y with state := .waiting d } else y } }))
      ∧ (∀ id r target tv, s.control.station.speaks = true → findSupply s id = some r →
          r.state = .recalling target tv d →
          exec (.recallDeadline dt id) s = .next (settle false p
            (withRecord { r with state := .closing, owed := some .release } (reach d p))))
      ∧ (s.engine.suspendEnd = some d →
          exec (.alertSuspensionEnd dt) s = .next (settle false p
            { reach d p with engine := { p.engine with suspendEnd := none } }))

/-- A DECLARE falls due when the period has passed since the last declaration instant, and 50 ms after it while a change is
pending: it then waits in the normal queue, or is due for a place while the queue is full (R31 to R33). The clock is brought
up to that time (the model's choice, log entry 2). -/
def Obligations.DeclareFallsDue : Prop :=
  ∀ (dt l : Nat) (s : State),
    let placed (t : State) : Prop :=
      t.link.normal.any OutFrame.isDeclare = true ∨ (t.engine.declareDue = true ∧ 12 ≤ t.link.normal.length)
    s.control.resetHeld = false → builderIdle s = true → s.engine.lastInstant = some l →
      (∃ t, exec (.declarePeriodDue dt) s = .next t ∧ t.now = max (s.now + dt) (l + 1250 * (cfg s).period) ∧ placed t)
      ∧ (s.engine.changePending = true →
          ∃ t, exec (.declareSpacingEnd dt) s = .next t ∧ t.now = max (s.now + dt) (l + 6250) ∧ placed t)

/-! ### The power path -/

/-- The ramp time's end closes the path (R110), a new reading on PATH_SENSE is the one compared (R113), and SUPPLY_PRESENT is
followed from the end of LOADING (R62). The clock is brought up to the ramp's end (the model's choice, log entry 2). -/
def Obligations.PathInputsFollowed : Prop :=
  ∀ (dt current e : Nat) (s : State), s.control.resetHeld = false →
    let p := advance dt s
    let q : State := { p with path := { p.path with pathSense := current } }
    (s.path.state = .ramping → s.path.rampEnd = some e →
        exec (.rampEnd dt) s = .next (settle false p
          { reach e p with path := { p.path with state := .closed, rampEnd := none } }))
      ∧ exec (.pathCurrentChange dt current) s = .next (settle false q q)
      ∧ (s.control.station ≠ .loading →
          exec (.supplyLoss dt) s = .next (settle false p { p with engine := { p.engine with supply := false } })
          ∧ exec (.supplyReturn dt) s = .next (settle false p { p with engine := { p.engine with supply := true } }))
      ∧ (s.control.station = .loading →
          exec (.supplyLoss dt) s = .next (settle false p p) ∧ exec (.supplyReturn dt) s = .next (settle false p p))

/-- A running overdraw timer trips the path when it has run for the overdraw grace, or, with the shed window open, for the
shed grace within it: TRIPPED, PATH_TRIPPED, no ask, no ACTIVE taker-side record, timer and window gone (R115, R116). The
shed window's end closes it, and trips the path if the timer has run for the overdraw grace; with no timer running, or one
that has not, it closes the window and does no more (R114, R115). The clock is brought up to the trip or the close (the
model's choice, log entry 2). A shed grace below the overdraw grace leads to two more of the model's choices: a timer past
the shed grace when the window opens trips at the next TRIP (log entry 32), and one that started in the happening that
opened the window may trip at the window's end (log entry 34). -/
def Obligations.OverdrawTrips : Prop :=
  ∀ (dt start : Nat) (s : State),
    let p := advance dt s
    let tripped (t : State) : Prop :=
      t.path.state = .tripped ∧ t.engine.asks = [] ∧ (∀ r ∈ t.engine.table, r.side = .take → r.state ≠ .active)
        ∧ t.path.overdraw = none ∧ t.path.shedEnd = none ∧ t.path.pathEn = false ∧ hasEvent .pathTripped t = true
    s.control.resetHeld = false → s.control.station ≠ .loading →
      (s.path.overdraw = none → ∀ w, s.path.shedEnd = some w →
          exec (.shedWindowClose dt) s = .next (settle false p
            { reach w p with path := { p.path with shedEnd := none } }))
      ∧ (s.path.overdraw = some start →
          (s.path.shedEnd = none →
              ∃ t, exec (.trip dt) s = .next t ∧ tripped t ∧ t.now = max p.now (start + 125 * (cfg s).overdrawGrace))
          ∧ (∀ w, s.path.shedEnd = some w →
              ∃ t, exec (.trip dt) s = .next t ∧ tripped t
                ∧ t.now = max p.now (if start + 125 * (cfg s).shedGrace ≤ w then start + 125 * (cfg s).shedGrace
                    else max w (start + 125 * (cfg s).overdrawGrace)))
          ∧ (∀ w, s.path.shedEnd = some w → start + 125 * (cfg s).overdrawGrace ≤ max p.now w →
              ∃ t, exec (.shedWindowClose dt) s = .next t ∧ tripped t ∧ t.now = max p.now w)
          ∧ (∀ w, s.path.shedEnd = some w → max p.now w < start + 125 * (cfg s).overdrawGrace →
              exec (.shedWindowClose dt) s = .next (settle false p
                { reach w p with path := { p.path with shedEnd := none } })))

/-- The rail watch in JOINED (R119 to R122): a low reading starts the timer of an armed detector, a restored one stops it
and arms the detector, and a brownout disarms it, sets ALERT and sheds as a consumed ALERT does; where no ALERT was seen
within the holdoff, it queues one with the rail's voltage, which pre-empts a frame in backoff (R133), or is dropped and
counted by a full urgent queue (R140). The clock is brought up to 2 ms of low rail (the model's choice, log entry 2). -/
def Obligations.RailIsWatched : Prop :=
  ∀ (dt rail : Nat) (s : State),
    let p := advance dt s
    let read : State := { p with path := { p.path with railSense := rail } }
    s.control.resetHeld = false → s.control.station = .joined →
      (rail < (cfg s).alertThreshold → s.path.armed = true → s.path.railTimer = none →
          exec (.railLow dt rail) s = .next (settle false read
            { read with path := { read.path with railTimer := some p.now } }))
      ∧ ((cfg s).alertThreshold ≤ rail →
          exec (.railRestored dt rail) s = .next (settle false read
            { read with path := { read.path with railTimer := none, armed := true } }))
      ∧ (∀ start, s.path.railTimer = some start → rail < (cfg s).alertThreshold →
          let u := reach (start + 250) p
          let out : State := { u with path := { u.path with railTimer := none, armed := false, railSense := rail } }
          let sent : State :=
            if ∀ l, s.path.lastAlert = some l → l + 125 * (cfg s).alertHoldoff ≤ u.now then
              if s.link.urgent.length < 4 then
                let queued : State :=
                  { out with link := { out.link with urgent := s.link.urgent ++ [⟨0, .fixed (.alert rail), 0⟩] } }
                match s.link.current with
                | some c =>
                  if c.phase = .backoff ∧ c.frame.isUrgent = false then
                    { queued with link := { queued.link with current := none, preempted := some c } }
                  else queued
                | none => queued
              else { out with link := { out.link with counters := { s.link.counters with
                alertsDropped := min 65535 (s.link.counters.alertsDropped + 1) } } }
            else out
          let told : State := { sent with host := { sent.host with flags := s.host.flags ||| Event.alert.bit } }
          (s.engine.role ≠ .taker ∨ (cfg s).sheddable = false →
              exec (.brownout dt rail) s = .next (settle true p told))
          ∧ (TablesOrdered s → s.engine.role = .taker → (cfg s).sheddable = true →
              let m := withoutAsks (withTakesClosed told)
              exec (.brownout dt rail) s = .next (settle true p
                { m with engine := { m.engine with suspendEnd := some (u.now + 125 * (cfg s).alertHoldoff) } })))
end

