-- ==== Sys2Proof/Laws/State.lean ====
section
/-! SUPPORT. The small lemmas of the state: what each named update leaves alone, and what it writes, by rfl. -/

namespace Sys2Proof.Machine

variable (s : State)

/-! ### setEvent -/

@[simp] theorem setEvent_control (e : Event) : (setEvent e s).control = s.control := rfl
@[simp] theorem setEvent_engine (e : Event) : (setEvent e s).engine = s.engine := rfl
@[simp] theorem setEvent_peers (e : Event) : (setEvent e s).peers = s.peers := rfl
@[simp] theorem setEvent_link (e : Event) : (setEvent e s).link = s.link := rfl
@[simp] theorem setEvent_path (e : Event) : (setEvent e s).path = s.path := rfl
@[simp] theorem setEvent_now (e : Event) : (setEvent e s).now = s.now := rfl
@[simp] theorem setEvent_pending (e : Event) : (setEvent e s).pending = s.pending := rfl

/-! ### noteContracts -/

@[simp] theorem noteContracts_control : (noteContracts s).control = s.control := rfl
@[simp] theorem noteContracts_engine : (noteContracts s).engine = s.engine := rfl
@[simp] theorem noteContracts_peers : (noteContracts s).peers = s.peers := rfl
@[simp] theorem noteContracts_link : (noteContracts s).link = s.link := rfl
@[simp] theorem noteContracts_path : (noteContracts s).path = s.path := rfl
@[simp] theorem noteContracts_now : (noteContracts s).now = s.now := rfl
@[simp] theorem noteContracts_pending : (noteContracts s).pending = s.pending := rfl

/-! ### clearFlags -/

@[simp] theorem clearFlags_control (v : BitVec 16) : (clearFlags v s).control = s.control := rfl
@[simp] theorem clearFlags_engine (v : BitVec 16) : (clearFlags v s).engine = s.engine := rfl
@[simp] theorem clearFlags_peers (v : BitVec 16) : (clearFlags v s).peers = s.peers := rfl
@[simp] theorem clearFlags_link (v : BitVec 16) : (clearFlags v s).link = s.link := rfl
@[simp] theorem clearFlags_path (v : BitVec 16) : (clearFlags v s).path = s.path := rfl
@[simp] theorem clearFlags_now (v : BitVec 16) : (clearFlags v s).now = s.now := rfl
@[simp] theorem clearFlags_pending (v : BitVec 16) : (clearFlags v s).pending = s.pending := rfl

/-! ### withdraw -/

@[simp] theorem withdraw_control (n : Nat) : (withdraw n s).control = s.control := rfl
@[simp] theorem withdraw_engine (n : Nat) : (withdraw n s).engine = s.engine := rfl
@[simp] theorem withdraw_peers (n : Nat) : (withdraw n s).peers = s.peers := rfl
@[simp] theorem withdraw_path (n : Nat) : (withdraw n s).path = s.path := rfl
@[simp] theorem withdraw_host (n : Nat) : (withdraw n s).host = s.host := rfl
@[simp] theorem withdraw_now (n : Nat) : (withdraw n s).now = s.now := rfl
@[simp] theorem withdraw_pending (n : Nat) : (withdraw n s).pending = s.pending := rfl

/-! ### updateAsk -/

@[simp] theorem updateAsk_control (a : Nat) (f : Ask → Ask) : (updateAsk a f s).control = s.control := rfl
@[simp] theorem updateAsk_peers (a : Nat) (f : Ask → Ask) : (updateAsk a f s).peers = s.peers := rfl
@[simp] theorem updateAsk_link (a : Nat) (f : Ask → Ask) : (updateAsk a f s).link = s.link := rfl
@[simp] theorem updateAsk_path (a : Nat) (f : Ask → Ask) : (updateAsk a f s).path = s.path := rfl
@[simp] theorem updateAsk_host (a : Nat) (f : Ask → Ask) : (updateAsk a f s).host = s.host := rfl
@[simp] theorem updateAsk_now (a : Nat) (f : Ask → Ask) : (updateAsk a f s).now = s.now := rfl
@[simp] theorem updateAsk_pending (a : Nat) (f : Ask → Ask) : (updateAsk a f s).pending = s.pending := rfl

/-! ### updatePeer -/

@[simp] theorem updatePeer_control (a : Nat) (f : Peer → Peer) : (updatePeer a f s).control = s.control := rfl
@[simp] theorem updatePeer_engine (a : Nat) (f : Peer → Peer) : (updatePeer a f s).engine = s.engine := rfl
@[simp] theorem updatePeer_link (a : Nat) (f : Peer → Peer) : (updatePeer a f s).link = s.link := rfl
@[simp] theorem updatePeer_path (a : Nat) (f : Peer → Peer) : (updatePeer a f s).path = s.path := rfl
@[simp] theorem updatePeer_host (a : Nat) (f : Peer → Peer) : (updatePeer a f s).host = s.host := rfl
@[simp] theorem updatePeer_now (a : Nat) (f : Peer → Peer) : (updatePeer a f s).now = s.now := rfl
@[simp] theorem updatePeer_pending (a : Nat) (f : Peer → Peer) : (updatePeer a f s).pending = s.pending := rfl

/-! ### setSkip -/

@[simp] theorem setSkip_control (a : Nat) : (setSkip a s).control = s.control := rfl
@[simp] theorem setSkip_engine (a : Nat) : (setSkip a s).engine = s.engine := rfl
@[simp] theorem setSkip_link (a : Nat) : (setSkip a s).link = s.link := rfl
@[simp] theorem setSkip_path (a : Nat) : (setSkip a s).path = s.path := rfl
@[simp] theorem setSkip_host (a : Nat) : (setSkip a s).host = s.host := rfl
@[simp] theorem setSkip_now (a : Nat) : (setSkip a s).now = s.now := rfl
@[simp] theorem setSkip_pending (a : Nat) : (setSkip a s).pending = s.pending := rfl

/-! ### hear -/

@[simp] theorem hear_control (a : Nat) : (hear a s).control = s.control := rfl
@[simp] theorem hear_engine (a : Nat) : (hear a s).engine = s.engine := rfl
@[simp] theorem hear_link (a : Nat) : (hear a s).link = s.link := rfl
@[simp] theorem hear_path (a : Nat) : (hear a s).path = s.path := rfl
@[simp] theorem hear_host (a : Nat) : (hear a s).host = s.host := rfl
@[simp] theorem hear_now (a : Nat) : (hear a s).now = s.now := rfl
@[simp] theorem hear_pending (a : Nat) : (hear a s).pending = s.pending := rfl

/-! ### dueFinal -/

@[simp] theorem dueFinal_control : (dueFinal s).control = s.control := rfl
@[simp] theorem dueFinal_peers : (dueFinal s).peers = s.peers := rfl
@[simp] theorem dueFinal_link : (dueFinal s).link = s.link := rfl
@[simp] theorem dueFinal_path : (dueFinal s).path = s.path := rfl
@[simp] theorem dueFinal_host : (dueFinal s).host = s.host := rfl
@[simp] theorem dueFinal_now : (dueFinal s).now = s.now := rfl
@[simp] theorem dueFinal_pending : (dueFinal s).pending = s.pending := rfl

/-! ### clearBuilder -/

@[simp] theorem clearBuilder_control : (clearBuilder s).control = s.control := rfl
@[simp] theorem clearBuilder_peers : (clearBuilder s).peers = s.peers := rfl
@[simp] theorem clearBuilder_link : (clearBuilder s).link = s.link := rfl
@[simp] theorem clearBuilder_path : (clearBuilder s).path = s.path := rfl
@[simp] theorem clearBuilder_host : (clearBuilder s).host = s.host := rfl
@[simp] theorem clearBuilder_now : (clearBuilder s).now = s.now := rfl
@[simp] theorem clearBuilder_pending : (clearBuilder s).pending = s.pending := rfl

/-! ### clearLink -/

@[simp] theorem clearLink_control : (clearLink s).control = s.control := rfl
@[simp] theorem clearLink_engine : (clearLink s).engine = s.engine := rfl
@[simp] theorem clearLink_peers : (clearLink s).peers = s.peers := rfl
@[simp] theorem clearLink_path : (clearLink s).path = s.path := rfl
@[simp] theorem clearLink_host : (clearLink s).host = s.host := rfl
@[simp] theorem clearLink_now : (clearLink s).now = s.now := rfl
@[simp] theorem clearLink_pending : (clearLink s).pending = s.pending := rfl

/-! ### stopRailWatch -/

@[simp] theorem stopRailWatch_control : (stopRailWatch s).control = s.control := rfl
@[simp] theorem stopRailWatch_engine : (stopRailWatch s).engine = s.engine := rfl
@[simp] theorem stopRailWatch_peers : (stopRailWatch s).peers = s.peers := rfl
@[simp] theorem stopRailWatch_link : (stopRailWatch s).link = s.link := rfl
@[simp] theorem stopRailWatch_host : (stopRailWatch s).host = s.host := rfl
@[simp] theorem stopRailWatch_now : (stopRailWatch s).now = s.now := rfl
@[simp] theorem stopRailWatch_pending : (stopRailWatch s).pending = s.pending := rfl

/-! ### lineIdle -/

@[simp] theorem lineIdle_control : (lineIdle s).control = s.control := rfl
@[simp] theorem lineIdle_engine : (lineIdle s).engine = s.engine := rfl
@[simp] theorem lineIdle_peers : (lineIdle s).peers = s.peers := rfl
@[simp] theorem lineIdle_path : (lineIdle s).path = s.path := rfl
@[simp] theorem lineIdle_host : (lineIdle s).host = s.host := rfl
@[simp] theorem lineIdle_now : (lineIdle s).now = s.now := rfl
@[simp] theorem lineIdle_pending : (lineIdle s).pending = s.pending := rfl

/-! ### complete -/

@[simp] theorem complete_control (tag kind : Byte) (code : ResultCode) (data : List Byte) : (complete tag kind code data s).control = s.control := rfl
@[simp] theorem complete_engine (tag kind : Byte) (code : ResultCode) (data : List Byte) : (complete tag kind code data s).engine = s.engine := rfl
@[simp] theorem complete_peers (tag kind : Byte) (code : ResultCode) (data : List Byte) : (complete tag kind code data s).peers = s.peers := rfl
@[simp] theorem complete_link (tag kind : Byte) (code : ResultCode) (data : List Byte) : (complete tag kind code data s).link = s.link := rfl
@[simp] theorem complete_path (tag kind : Byte) (code : ResultCode) (data : List Byte) : (complete tag kind code data s).path = s.path := rfl
@[simp] theorem complete_now (tag kind : Byte) (code : ResultCode) (data : List Byte) : (complete tag kind code data s).now = s.now := rfl
@[simp] theorem complete_pending (tag kind : Byte) (code : ResultCode) (data : List Byte) : (complete tag kind code data s).pending = s.pending := rfl

/-! ### finish -/

@[simp] theorem finish_control (q : Request) (code : ResultCode) : (finish q code s).control = s.control := rfl
@[simp] theorem finish_engine (q : Request) (code : ResultCode) : (finish q code s).engine = s.engine := rfl
@[simp] theorem finish_peers (q : Request) (code : ResultCode) : (finish q code s).peers = s.peers := rfl
@[simp] theorem finish_link (q : Request) (code : ResultCode) : (finish q code s).link = s.link := rfl
@[simp] theorem finish_path (q : Request) (code : ResultCode) : (finish q code s).path = s.path := rfl
@[simp] theorem finish_now (q : Request) (code : ResultCode) : (finish q code s).now = s.now := rfl
@[simp] theorem finish_pending (q : Request) (code : ResultCode) : (finish q code s).pending = s.pending := rfl

/-! ### becomeLong -/

@[simp] theorem becomeLong_control (kind : LongKind) (q : Request) : (becomeLong kind q s).control = s.control := rfl
@[simp] theorem becomeLong_engine (kind : LongKind) (q : Request) : (becomeLong kind q s).engine = s.engine := rfl
@[simp] theorem becomeLong_peers (kind : LongKind) (q : Request) : (becomeLong kind q s).peers = s.peers := rfl
@[simp] theorem becomeLong_link (kind : LongKind) (q : Request) : (becomeLong kind q s).link = s.link := rfl
@[simp] theorem becomeLong_path (kind : LongKind) (q : Request) : (becomeLong kind q s).path = s.path := rfl
@[simp] theorem becomeLong_now (kind : LongKind) (q : Request) : (becomeLong kind q s).now = s.now := rfl
@[simp] theorem becomeLong_pending (kind : LongKind) (q : Request) : (becomeLong kind q s).pending = s.pending := rfl

/-! ### removeHead -/

@[simp] theorem removeHead_control : (removeHead s).control = s.control := rfl
@[simp] theorem removeHead_engine : (removeHead s).engine = s.engine := rfl
@[simp] theorem removeHead_peers : (removeHead s).peers = s.peers := rfl
@[simp] theorem removeHead_link : (removeHead s).link = s.link := rfl
@[simp] theorem removeHead_path : (removeHead s).path = s.path := rfl
@[simp] theorem removeHead_now : (removeHead s).now = s.now := rfl
@[simp] theorem removeHead_pending : (removeHead s).pending = s.pending := rfl

/-! ### refreshPeer -/

@[simp] theorem refreshPeer_control (a : Nat) (d : Declare) : (refreshPeer a d s).control = s.control := rfl
@[simp] theorem refreshPeer_engine (a : Nat) (d : Declare) : (refreshPeer a d s).engine = s.engine := rfl
@[simp] theorem refreshPeer_link (a : Nat) (d : Declare) : (refreshPeer a d s).link = s.link := rfl
@[simp] theorem refreshPeer_path (a : Nat) (d : Declare) : (refreshPeer a d s).path = s.path := rfl
@[simp] theorem refreshPeer_host (a : Nat) (d : Declare) : (refreshPeer a d s).host = s.host := rfl
@[simp] theorem refreshPeer_now (a : Nat) (d : Declare) : (refreshPeer a d s).now = s.now := rfl
@[simp] theorem refreshPeer_pending (a : Nat) (d : Declare) : (refreshPeer a d s).pending = s.pending := rfl

/-! ### createPeer -/

@[simp] theorem createPeer_control (a : Nat) (d : Declare) : (createPeer a d s).control = s.control := rfl
@[simp] theorem createPeer_engine (a : Nat) (d : Declare) : (createPeer a d s).engine = s.engine := rfl
@[simp] theorem createPeer_link (a : Nat) (d : Declare) : (createPeer a d s).link = s.link := rfl
@[simp] theorem createPeer_path (a : Nat) (d : Declare) : (createPeer a d s).path = s.path := rfl
@[simp] theorem createPeer_now (a : Nat) (d : Declare) : (createPeer a d s).now = s.now := rfl
@[simp] theorem createPeer_pending (a : Nat) (d : Declare) : (createPeer a d s).pending = s.pending := rfl

/-! ### drive -/

@[simp] theorem drive_control : (drive s).control = s.control := rfl
@[simp] theorem drive_engine : (drive s).engine = s.engine := rfl
@[simp] theorem drive_peers : (drive s).peers = s.peers := rfl
@[simp] theorem drive_link : (drive s).link = s.link := rfl
@[simp] theorem drive_now : (drive s).now = s.now := rfl
@[simp] theorem drive_pending : (drive s).pending = s.pending := rfl

/-! ### setEvent, inside `host` -/

@[simp] theorem setEvent_host_requests (e : Event) : (setEvent e s).host.requests = s.host.requests := rfl
@[simp] theorem setEvent_host_results (e : Event) : (setEvent e s).host.results = s.host.results := rfl
@[simp] theorem setEvent_host_reserved (e : Event) : (setEvent e s).host.reserved = s.host.reserved := rfl
@[simp] theorem setEvent_host_long (e : Event) : (setEvent e s).host.long = s.host.long := rfl
@[simp] theorem setEvent_host_staged (e : Event) : (setEvent e s).host.staged = s.host.staged := rfl
@[simp] theorem setEvent_host_flags (e : Event) : (setEvent e s).host.flags = s.host.flags ||| e.bit := rfl
@[simp] theorem setEvent_host_mask (e : Event) : (setEvent e s).host.mask = s.host.mask := rfl
@[simp] theorem setEvent_host_int (e : Event) : (setEvent e s).host.int = s.host.int := rfl
@[simp] theorem setEvent_host_pointer (e : Event) : (setEvent e s).host.pointer = s.host.pointer := rfl
@[simp] theorem setEvent_host_address (e : Event) : (setEvent e s).host.address = s.host.address := rfl
@[simp] theorem setEvent_host_straps (e : Event) : (setEvent e s).host.straps = s.host.straps := rfl
@[simp] theorem setEvent_host_out (e : Event) : (setEvent e s).host.out = s.host.out := rfl
@[simp] theorem setEvent_host_draws (e : Event) : (setEvent e s).host.draws = s.host.draws := rfl

/-! ### noteContracts, inside `host` -/

@[simp] theorem noteContracts_host_requests : (noteContracts s).host.requests = s.host.requests := rfl
@[simp] theorem noteContracts_host_results : (noteContracts s).host.results = s.host.results := rfl
@[simp] theorem noteContracts_host_reserved : (noteContracts s).host.reserved = s.host.reserved := rfl
@[simp] theorem noteContracts_host_long : (noteContracts s).host.long = s.host.long := rfl
@[simp] theorem noteContracts_host_staged : (noteContracts s).host.staged = s.host.staged := rfl
@[simp] theorem noteContracts_host_flags :
    (noteContracts s).host.flags = s.host.flags ||| Event.contractsChanged.bit := rfl
@[simp] theorem noteContracts_host_mask : (noteContracts s).host.mask = s.host.mask := rfl
@[simp] theorem noteContracts_host_int : (noteContracts s).host.int = s.host.int := rfl
@[simp] theorem noteContracts_host_pointer : (noteContracts s).host.pointer = s.host.pointer := rfl
@[simp] theorem noteContracts_host_address : (noteContracts s).host.address = s.host.address := rfl
@[simp] theorem noteContracts_host_straps : (noteContracts s).host.straps = s.host.straps := rfl
@[simp] theorem noteContracts_host_out : (noteContracts s).host.out = s.host.out := rfl
@[simp] theorem noteContracts_host_draws : (noteContracts s).host.draws = s.host.draws := rfl

/-! ### withdraw, inside `link` -/

@[simp] theorem withdraw_link_urgent (n : Nat) : (withdraw n s).link.urgent = s.link.urgent := rfl
@[simp] theorem withdraw_link_normal (n : Nat) :
    (withdraw n s).link.normal = s.link.normal.filter fun f => f.ref != n := rfl
@[simp] theorem withdraw_link_current (n : Nat) : (withdraw n s).link.current = s.link.current := rfl
@[simp] theorem withdraw_link_preempted (n : Nat) : (withdraw n s).link.preempted = s.link.preempted := rfl
@[simp] theorem withdraw_link_inbound (n : Nat) : (withdraw n s).link.inbound = s.link.inbound := rfl
@[simp] theorem withdraw_link_ackDue (n : Nat) : (withdraw n s).link.ackDue = s.link.ackDue := rfl
@[simp] theorem withdraw_link_ackOut (n : Nat) : (withdraw n s).link.ackOut = s.link.ackOut := rfl
@[simp] theorem withdraw_link_idleSince (n : Nat) : (withdraw n s).link.idleSince = s.link.idleSince := rfl
@[simp] theorem withdraw_link_counters (n : Nat) : (withdraw n s).link.counters = s.link.counters := rfl

/-! ### updateAsk, inside `engine` -/

@[simp] theorem updateAsk_engine_table (a : Nat) (f : Ask → Ask) :
    (updateAsk a f s).engine.table = s.engine.table := rfl
@[simp] theorem updateAsk_engine_asks (a : Nat) (f : Ask → Ask) :
    (updateAsk a f s).engine.asks = s.engine.asks.map fun x => if x.supplier == a then f x else x := rfl
@[simp] theorem updateAsk_engine_role (a : Nat) (f : Ask → Ask) : (updateAsk a f s).engine.role = s.engine.role := rfl
@[simp] theorem updateAsk_engine_demand (a : Nat) (f : Ask → Ask) :
    (updateAsk a f s).engine.demand = s.engine.demand := rfl
@[simp] theorem updateAsk_engine_capacity (a : Nat) (f : Ask → Ask) :
    (updateAsk a f s).engine.capacity = s.engine.capacity := rfl
@[simp] theorem updateAsk_engine_supply (a : Nat) (f : Ask → Ask) :
    (updateAsk a f s).engine.supply = s.engine.supply := rfl
@[simp] theorem updateAsk_engine_nextContract (a : Nat) (f : Ask → Ask) :
    (updateAsk a f s).engine.nextContract = s.engine.nextContract := rfl
@[simp] theorem updateAsk_engine_nextRequest (a : Nat) (f : Ask → Ask) :
    (updateAsk a f s).engine.nextRequest = s.engine.nextRequest := rfl
@[simp] theorem updateAsk_engine_suspendEnd (a : Nat) (f : Ask → Ask) :
    (updateAsk a f s).engine.suspendEnd = s.engine.suspendEnd := rfl
@[simp] theorem updateAsk_engine_declareDue (a : Nat) (f : Ask → Ask) :
    (updateAsk a f s).engine.declareDue = s.engine.declareDue := rfl
@[simp] theorem updateAsk_engine_finalDue (a : Nat) (f : Ask → Ask) :
    (updateAsk a f s).engine.finalDue = s.engine.finalDue := rfl
@[simp] theorem updateAsk_engine_changePending (a : Nat) (f : Ask → Ask) :
    (updateAsk a f s).engine.changePending = s.engine.changePending := rfl
@[simp] theorem updateAsk_engine_lastInstant (a : Nat) (f : Ask → Ask) :
    (updateAsk a f s).engine.lastInstant = s.engine.lastInstant := rfl
@[simp] theorem updateAsk_engine_nextRef (a : Nat) (f : Ask → Ask) :
    (updateAsk a f s).engine.nextRef = s.engine.nextRef := rfl

/-! ### dueFinal, inside `engine` -/

@[simp] theorem dueFinal_engine_table : (dueFinal s).engine.table = s.engine.table := rfl
@[simp] theorem dueFinal_engine_asks : (dueFinal s).engine.asks = s.engine.asks := rfl
@[simp] theorem dueFinal_engine_role : (dueFinal s).engine.role = s.engine.role := rfl
@[simp] theorem dueFinal_engine_demand : (dueFinal s).engine.demand = s.engine.demand := rfl
@[simp] theorem dueFinal_engine_capacity : (dueFinal s).engine.capacity = s.engine.capacity := rfl
@[simp] theorem dueFinal_engine_supply : (dueFinal s).engine.supply = s.engine.supply := rfl
@[simp] theorem dueFinal_engine_nextContract : (dueFinal s).engine.nextContract = s.engine.nextContract := rfl
@[simp] theorem dueFinal_engine_nextRequest : (dueFinal s).engine.nextRequest = s.engine.nextRequest := rfl
@[simp] theorem dueFinal_engine_suspendEnd : (dueFinal s).engine.suspendEnd = s.engine.suspendEnd := rfl
@[simp] theorem dueFinal_engine_declareDue : (dueFinal s).engine.declareDue = true := rfl
@[simp] theorem dueFinal_engine_finalDue : (dueFinal s).engine.finalDue = true := rfl
@[simp] theorem dueFinal_engine_changePending : (dueFinal s).engine.changePending = s.engine.changePending := rfl
@[simp] theorem dueFinal_engine_lastInstant : (dueFinal s).engine.lastInstant = s.engine.lastInstant := rfl
@[simp] theorem dueFinal_engine_nextRef : (dueFinal s).engine.nextRef = s.engine.nextRef := rfl

/-! ### clearBuilder, inside `engine` -/

@[simp] theorem clearBuilder_engine_table : (clearBuilder s).engine.table = s.engine.table := rfl
@[simp] theorem clearBuilder_engine_asks : (clearBuilder s).engine.asks = s.engine.asks := rfl
@[simp] theorem clearBuilder_engine_role : (clearBuilder s).engine.role = s.engine.role := rfl
@[simp] theorem clearBuilder_engine_demand : (clearBuilder s).engine.demand = s.engine.demand := rfl
@[simp] theorem clearBuilder_engine_capacity : (clearBuilder s).engine.capacity = s.engine.capacity := rfl
@[simp] theorem clearBuilder_engine_supply : (clearBuilder s).engine.supply = s.engine.supply := rfl
@[simp] theorem clearBuilder_engine_nextContract : (clearBuilder s).engine.nextContract = s.engine.nextContract := rfl
@[simp] theorem clearBuilder_engine_nextRequest : (clearBuilder s).engine.nextRequest = s.engine.nextRequest := rfl
@[simp] theorem clearBuilder_engine_suspendEnd : (clearBuilder s).engine.suspendEnd = s.engine.suspendEnd := rfl
@[simp] theorem clearBuilder_engine_declareDue : (clearBuilder s).engine.declareDue = false := rfl
@[simp] theorem clearBuilder_engine_finalDue : (clearBuilder s).engine.finalDue = false := rfl
@[simp] theorem clearBuilder_engine_changePending : (clearBuilder s).engine.changePending = false := rfl
@[simp] theorem clearBuilder_engine_lastInstant : (clearBuilder s).engine.lastInstant = none := rfl
@[simp] theorem clearBuilder_engine_nextRef : (clearBuilder s).engine.nextRef = s.engine.nextRef := rfl

/-! ### clearLink, inside `link` -/

@[simp] theorem clearLink_link_urgent : (clearLink s).link.urgent = [] := rfl
@[simp] theorem clearLink_link_normal : (clearLink s).link.normal = [] := rfl
@[simp] theorem clearLink_link_current : (clearLink s).link.current = none := rfl
@[simp] theorem clearLink_link_preempted : (clearLink s).link.preempted = none := rfl
@[simp] theorem clearLink_link_inbound : (clearLink s).link.inbound = [] := rfl
@[simp] theorem clearLink_link_ackDue : (clearLink s).link.ackDue = none := rfl
@[simp] theorem clearLink_link_ackOut : (clearLink s).link.ackOut = none := rfl
@[simp] theorem clearLink_link_idleSince : (clearLink s).link.idleSince = none := rfl
@[simp] theorem clearLink_link_counters : (clearLink s).link.counters = s.link.counters := rfl

/-! ### stopRailWatch, inside `path` -/

@[simp] theorem stopRailWatch_path_state : (stopRailWatch s).path.state = s.path.state := rfl
@[simp] theorem stopRailWatch_path_limit : (stopRailWatch s).path.limit = s.path.limit := rfl
@[simp] theorem stopRailWatch_path_rampEnd : (stopRailWatch s).path.rampEnd = s.path.rampEnd := rfl
@[simp] theorem stopRailWatch_path_overdraw : (stopRailWatch s).path.overdraw = s.path.overdraw := rfl
@[simp] theorem stopRailWatch_path_shedEnd : (stopRailWatch s).path.shedEnd = s.path.shedEnd := rfl
@[simp] theorem stopRailWatch_path_railTimer : (stopRailWatch s).path.railTimer = none := rfl
@[simp] theorem stopRailWatch_path_armed : (stopRailWatch s).path.armed = true := rfl
@[simp] theorem stopRailWatch_path_lastAlert : (stopRailWatch s).path.lastAlert = s.path.lastAlert := rfl
@[simp] theorem stopRailWatch_path_pathSense : (stopRailWatch s).path.pathSense = s.path.pathSense := rfl
@[simp] theorem stopRailWatch_path_railSense : (stopRailWatch s).path.railSense = s.path.railSense := rfl
@[simp] theorem stopRailWatch_path_pathEn : (stopRailWatch s).path.pathEn = s.path.pathEn := rfl
@[simp] theorem stopRailWatch_path_limitOut : (stopRailWatch s).path.limitOut = s.path.limitOut := rfl

/-! ### lineIdle, inside `link` -/

@[simp] theorem lineIdle_link_urgent : (lineIdle s).link.urgent = s.link.urgent := rfl
@[simp] theorem lineIdle_link_normal : (lineIdle s).link.normal = s.link.normal := rfl
@[simp] theorem lineIdle_link_current : (lineIdle s).link.current = s.link.current := rfl
@[simp] theorem lineIdle_link_preempted : (lineIdle s).link.preempted = s.link.preempted := rfl
@[simp] theorem lineIdle_link_inbound : (lineIdle s).link.inbound = s.link.inbound := rfl
@[simp] theorem lineIdle_link_ackDue : (lineIdle s).link.ackDue = s.link.ackDue := rfl
@[simp] theorem lineIdle_link_ackOut : (lineIdle s).link.ackOut = s.link.ackOut := rfl
@[simp] theorem lineIdle_link_idleSince : (lineIdle s).link.idleSince = some s.now := rfl
@[simp] theorem lineIdle_link_counters : (lineIdle s).link.counters = s.link.counters := rfl

/-! ### complete, inside `host` -/

@[simp] theorem complete_host_requests (tag kind : Byte) (code : ResultCode) (data : List Byte) :
    (complete tag kind code data s).host.requests = s.host.requests := rfl
@[simp] theorem complete_host_results (tag kind : Byte) (code : ResultCode) (data : List Byte) :
    (complete tag kind code data s).host.results = s.host.results ++ [⟨tag, kind, code, data⟩] := rfl
@[simp] theorem complete_host_reserved (tag kind : Byte) (code : ResultCode) (data : List Byte) :
    (complete tag kind code data s).host.reserved = s.host.reserved - 1 := rfl
@[simp] theorem complete_host_long (tag kind : Byte) (code : ResultCode) (data : List Byte) :
    (complete tag kind code data s).host.long = s.host.long := rfl
@[simp] theorem complete_host_staged (tag kind : Byte) (code : ResultCode) (data : List Byte) :
    (complete tag kind code data s).host.staged = s.host.staged := rfl
@[simp] theorem complete_host_flags (tag kind : Byte) (code : ResultCode) (data : List Byte) :
    (complete tag kind code data s).host.flags = s.host.flags ||| Event.resultReady.bit := rfl
@[simp] theorem complete_host_mask (tag kind : Byte) (code : ResultCode) (data : List Byte) :
    (complete tag kind code data s).host.mask = s.host.mask := rfl
@[simp] theorem complete_host_int (tag kind : Byte) (code : ResultCode) (data : List Byte) :
    (complete tag kind code data s).host.int = s.host.int := rfl
@[simp] theorem complete_host_pointer (tag kind : Byte) (code : ResultCode) (data : List Byte) :
    (complete tag kind code data s).host.pointer = s.host.pointer := rfl
@[simp] theorem complete_host_address (tag kind : Byte) (code : ResultCode) (data : List Byte) :
    (complete tag kind code data s).host.address = s.host.address := rfl
@[simp] theorem complete_host_straps (tag kind : Byte) (code : ResultCode) (data : List Byte) :
    (complete tag kind code data s).host.straps = s.host.straps := rfl
@[simp] theorem complete_host_out (tag kind : Byte) (code : ResultCode) (data : List Byte) :
    (complete tag kind code data s).host.out = s.host.out := rfl
@[simp] theorem complete_host_draws (tag kind : Byte) (code : ResultCode) (data : List Byte) :
    (complete tag kind code data s).host.draws = s.host.draws := rfl

/-! ### finish, inside `host` -/

@[simp] theorem finish_host_requests (q : Request) (code : ResultCode) :
    (finish q code s).host.requests = s.host.requests := rfl
@[simp] theorem finish_host_results (q : Request) (code : ResultCode) :
    (finish q code s).host.results = s.host.results ++ [⟨q.tag, q.kind, code, []⟩] := rfl
@[simp] theorem finish_host_reserved (q : Request) (code : ResultCode) :
    (finish q code s).host.reserved = s.host.reserved - 1 := rfl
@[simp] theorem finish_host_long (q : Request) (code : ResultCode) : (finish q code s).host.long = s.host.long := rfl
@[simp] theorem finish_host_staged (q : Request) (code : ResultCode) :
    (finish q code s).host.staged = s.host.staged := rfl
@[simp] theorem finish_host_flags (q : Request) (code : ResultCode) :
    (finish q code s).host.flags = s.host.flags ||| Event.resultReady.bit := rfl
@[simp] theorem finish_host_mask (q : Request) (code : ResultCode) : (finish q code s).host.mask = s.host.mask := rfl
@[simp] theorem finish_host_int (q : Request) (code : ResultCode) : (finish q code s).host.int = s.host.int := rfl
@[simp] theorem finish_host_pointer (q : Request) (code : ResultCode) :
    (finish q code s).host.pointer = s.host.pointer := rfl
@[simp] theorem finish_host_address (q : Request) (code : ResultCode) :
    (finish q code s).host.address = s.host.address := rfl
@[simp] theorem finish_host_straps (q : Request) (code : ResultCode) :
    (finish q code s).host.straps = s.host.straps := rfl
@[simp] theorem finish_host_out (q : Request) (code : ResultCode) : (finish q code s).host.out = s.host.out := rfl
@[simp] theorem finish_host_draws (q : Request) (code : ResultCode) : (finish q code s).host.draws = s.host.draws := rfl

/-! ### becomeLong, inside `host` -/

@[simp] theorem becomeLong_host_requests (kind : LongKind) (q : Request) :
    (becomeLong kind q s).host.requests = s.host.requests := rfl
@[simp] theorem becomeLong_host_results (kind : LongKind) (q : Request) :
    (becomeLong kind q s).host.results = s.host.results := rfl
@[simp] theorem becomeLong_host_reserved (kind : LongKind) (q : Request) :
    (becomeLong kind q s).host.reserved = s.host.reserved := rfl
@[simp] theorem becomeLong_host_long (kind : LongKind) (q : Request) :
    (becomeLong kind q s).host.long = some ⟨kind, q.tag⟩ := rfl
@[simp] theorem becomeLong_host_staged (kind : LongKind) (q : Request) :
    (becomeLong kind q s).host.staged = s.host.staged := rfl
@[simp] theorem becomeLong_host_flags (kind : LongKind) (q : Request) :
    (becomeLong kind q s).host.flags = s.host.flags := rfl
@[simp] theorem becomeLong_host_mask (kind : LongKind) (q : Request) :
    (becomeLong kind q s).host.mask = s.host.mask := rfl
@[simp] theorem becomeLong_host_int (kind : LongKind) (q : Request) : (becomeLong kind q s).host.int = s.host.int := rfl
@[simp] theorem becomeLong_host_pointer (kind : LongKind) (q : Request) :
    (becomeLong kind q s).host.pointer = s.host.pointer := rfl
@[simp] theorem becomeLong_host_address (kind : LongKind) (q : Request) :
    (becomeLong kind q s).host.address = s.host.address := rfl
@[simp] theorem becomeLong_host_straps (kind : LongKind) (q : Request) :
    (becomeLong kind q s).host.straps = s.host.straps := rfl
@[simp] theorem becomeLong_host_out (kind : LongKind) (q : Request) : (becomeLong kind q s).host.out = s.host.out := rfl
@[simp] theorem becomeLong_host_draws (kind : LongKind) (q : Request) :
    (becomeLong kind q s).host.draws = s.host.draws := rfl

/-! ### drive, inside `path` -/

@[simp] theorem drive_path_state : (drive s).path.state = s.path.state := rfl
@[simp] theorem drive_path_limit : (drive s).path.limit = s.path.limit := rfl
@[simp] theorem drive_path_rampEnd : (drive s).path.rampEnd = s.path.rampEnd := rfl
@[simp] theorem drive_path_overdraw : (drive s).path.overdraw = s.path.overdraw := rfl
@[simp] theorem drive_path_shedEnd : (drive s).path.shedEnd = s.path.shedEnd := rfl
@[simp] theorem drive_path_railTimer : (drive s).path.railTimer = s.path.railTimer := rfl
@[simp] theorem drive_path_armed : (drive s).path.armed = s.path.armed := rfl
@[simp] theorem drive_path_lastAlert : (drive s).path.lastAlert = s.path.lastAlert := rfl
@[simp] theorem drive_path_pathSense : (drive s).path.pathSense = s.path.pathSense := rfl
@[simp] theorem drive_path_railSense : (drive s).path.railSense = s.path.railSense := rfl
@[simp] theorem drive_path_pathEn :
    (drive s).path.pathEn = decide (s.path.state = .ramping ∨ s.path.state = .closed) := rfl
@[simp] theorem drive_path_limitOut : (drive s).path.limitOut = min fullScale s.path.limit := rfl

/-! ### drive, inside `host` -/

@[simp] theorem drive_host_requests : (drive s).host.requests = s.host.requests := rfl
@[simp] theorem drive_host_results : (drive s).host.results = s.host.results := rfl
@[simp] theorem drive_host_reserved : (drive s).host.reserved = s.host.reserved := rfl
@[simp] theorem drive_host_long : (drive s).host.long = s.host.long := rfl
@[simp] theorem drive_host_staged : (drive s).host.staged = s.host.staged := rfl
@[simp] theorem drive_host_flags : (drive s).host.flags = s.host.flags := rfl
@[simp] theorem drive_host_mask : (drive s).host.mask = s.host.mask := rfl
@[simp] theorem drive_host_int : (drive s).host.int = intLevel s.host := rfl
@[simp] theorem drive_host_pointer : (drive s).host.pointer = s.host.pointer := rfl
@[simp] theorem drive_host_address : (drive s).host.address = s.host.address := rfl
@[simp] theorem drive_host_straps : (drive s).host.straps = s.host.straps := rfl
@[simp] theorem drive_host_out : (drive s).host.out = s.host.out := rfl
@[simp] theorem drive_host_draws : (drive s).host.draws = s.host.draws := rfl

end Sys2Proof.Machine
end

