-- ==== Sys2Proof/Laws/Builder.lean ====
section
/-! SUPPORT. Where the due DECLARE is placed: the waiting DECLARE's place (R33, R34). -/

namespace Sys2Proof.Machine

/-- All that taking the place of the waiting DECLARE can do: the frames before and behind it stand, and the due one is in its
place. -/
theorem takePlace_spec (b : Bool) (l : List OutFrame) (h : l.any OutFrame.isDeclare = true) :
    ∃ before d after, l = before ++ d :: after ∧ d.isDeclare = true ∧ (∀ f ∈ before, f.isDeclare = false)
      ∧ takePlace b l = before ++ ⟨0, .declare b, 0⟩ :: after := by
  induction l with
  | nil => simp at h
  | cons f l ih =>
    by_cases hf : f.isDeclare = true
    · exact ⟨[], f, l, rfl, hf, nofun, by simp [takePlace, hf]⟩
    · obtain ⟨x, d, y, h1, h2, h3, h4⟩ := ih (by simpa [hf] using h)
      refine ⟨f :: x, d, y, by rw [h1]; rfl, h2, fun g hg => ?_, by simp [takePlace, hf, h4]⟩
      rcases List.mem_cons.mp hg with rfl | hg
      · simpa using hf
      · exact h3 g hg

/-- Where no DECLARE waits there is no place to take. -/
theorem takePlace_of_none (b : Bool) (l : List OutFrame) (h : l.any OutFrame.isDeclare = false) : takePlace b l = l := by
  induction l with
  | nil => rfl
  | cons f l ih =>
    simp only [List.any_cons, Bool.or_eq_false_iff] at h
    simp [takePlace, h.1, ih h.2]

@[simp] theorem takePlace_length (b : Bool) (l : List OutFrame) : (takePlace b l).length = l.length := by
  cases h : l.any OutFrame.isDeclare with
  | false => rw [takePlace_of_none b l h]
  | true =>
    obtain ⟨x, d, y, h1, -, -, h4⟩ := takePlace_spec b l h
    rw [h4, h1]
    simp

/-- As many DECLAREs wait after as before. -/
theorem takePlace_declares (b : Bool) (l : List OutFrame) :
    ((takePlace b l).filter OutFrame.isDeclare).length = (l.filter OutFrame.isDeclare).length := by
  cases h : l.any OutFrame.isDeclare with
  | false => rw [takePlace_of_none b l h]
  | true =>
    obtain ⟨x, d, y, h1, h2, -, h4⟩ := takePlace_spec b l h
    have e : OutFrame.isDeclare ⟨0, .declare b, 0⟩ = true := rfl
    rw [h4, h1]
    simp [List.filter_append, h2, e]

end Sys2Proof.Machine
end

