-- ==== Sys2Proof/Laws/Clock.lean ====
section
/-! SUPPORT. What the passing of time changes: the clock, and at most the end of the ACK being driven. So every reading of
the state that looks at neither is the same before and after. -/

namespace Sys2Proof.Machine

variable (n : Nat) (s : State)

/-! ### reach -/

/-- While no ACK is driven, only the clock moves. -/
theorem reach_of_ackOut_none (h : s.link.ackOut = none) : reach n s = { s with now := max s.now n } := by
  simp [reach, h]

/-- All that the passing of time can do. -/
theorem reach_cases :
    reach n s = { s with now := max s.now n } ∨
    ∃ a, s.link.ackOut = some a ∧ a.start + ackLength ≤ max s.now n ∧
      reach n s = { s with
        now := max s.now n
        link := { s.link with ackOut := none, idleSince := some (a.start + ackLength) } } := by
  unfold reach
  dsimp only
  split
  · split
    · rename_i a h k
      exact .inr ⟨a, h, k, rfl⟩
    · exact .inl rfl
  · exact .inl rfl

@[simp] theorem reach_now : (reach n s).now = max s.now n := by
  obtain h | ⟨_, _, _, h⟩ := reach_cases n s <;> rw [h]
@[simp] theorem reach_control : (reach n s).control = s.control := by
  obtain h | ⟨_, _, _, h⟩ := reach_cases n s <;> rw [h]
@[simp] theorem reach_engine : (reach n s).engine = s.engine := by
  obtain h | ⟨_, _, _, h⟩ := reach_cases n s <;> rw [h]
@[simp] theorem reach_peers : (reach n s).peers = s.peers := by
  obtain h | ⟨_, _, _, h⟩ := reach_cases n s <;> rw [h]
@[simp] theorem reach_path : (reach n s).path = s.path := by
  obtain h | ⟨_, _, _, h⟩ := reach_cases n s <;> rw [h]
@[simp] theorem reach_host : (reach n s).host = s.host := by
  obtain h | ⟨_, _, _, h⟩ := reach_cases n s <;> rw [h]
@[simp] theorem reach_pending : (reach n s).pending = s.pending := by
  obtain h | ⟨_, _, _, h⟩ := reach_cases n s <;> rw [h]
@[simp] theorem reach_urgent : (reach n s).link.urgent = s.link.urgent := by
  obtain h | ⟨_, _, _, h⟩ := reach_cases n s <;> rw [h]
@[simp] theorem reach_normal : (reach n s).link.normal = s.link.normal := by
  obtain h | ⟨_, _, _, h⟩ := reach_cases n s <;> rw [h]
@[simp] theorem reach_current : (reach n s).link.current = s.link.current := by
  obtain h | ⟨_, _, _, h⟩ := reach_cases n s <;> rw [h]
@[simp] theorem reach_preempted : (reach n s).link.preempted = s.link.preempted := by
  obtain h | ⟨_, _, _, h⟩ := reach_cases n s <;> rw [h]
@[simp] theorem reach_inbound : (reach n s).link.inbound = s.link.inbound := by
  obtain h | ⟨_, _, _, h⟩ := reach_cases n s <;> rw [h]
@[simp] theorem reach_ackDue : (reach n s).link.ackDue = s.link.ackDue := by
  obtain h | ⟨_, _, _, h⟩ := reach_cases n s <;> rw [h]
@[simp] theorem reach_counters : (reach n s).link.counters = s.link.counters := by
  obtain h | ⟨_, _, _, h⟩ := reach_cases n s <;> rw [h]

theorem reach_ackOut_of_none (h : s.link.ackOut = none) : (reach n s).link.ackOut = none := by
  rw [reach_of_ackOut_none _ _ h]; exact h

/-! ### advance -/

/-- While no ACK is driven, dt bit times move the clock and nothing else. -/
theorem advance_of_ackOut_none (h : s.link.ackOut = none) : advance n s = { s with now := s.now + n } := by
  simp [advance, reach_of_ackOut_none _ _ h]

@[simp] theorem advance_now : (advance n s).now = s.now + n := by simp [advance]
@[simp] theorem advance_control : (advance n s).control = s.control := by simp [advance]
@[simp] theorem advance_engine : (advance n s).engine = s.engine := by simp [advance]
@[simp] theorem advance_peers : (advance n s).peers = s.peers := by simp [advance]
@[simp] theorem advance_path : (advance n s).path = s.path := by simp [advance]
@[simp] theorem advance_host : (advance n s).host = s.host := by simp [advance]
@[simp] theorem advance_pending : (advance n s).pending = s.pending := by simp [advance]
@[simp] theorem advance_urgent : (advance n s).link.urgent = s.link.urgent := by simp [advance]
@[simp] theorem advance_normal : (advance n s).link.normal = s.link.normal := by simp [advance]
@[simp] theorem advance_current : (advance n s).link.current = s.link.current := by simp [advance]
@[simp] theorem advance_preempted : (advance n s).link.preempted = s.link.preempted := by simp [advance]
@[simp] theorem advance_inbound : (advance n s).link.inbound = s.link.inbound := by simp [advance]
@[simp] theorem advance_ackDue : (advance n s).link.ackDue = s.link.ackDue := by simp [advance]
@[simp] theorem advance_counters : (advance n s).link.counters = s.link.counters := by simp [advance]

theorem advance_ackOut_of_none (h : s.link.ackOut = none) : (advance n s).link.ackOut = none :=
  reach_ackOut_of_none _ _ h

/-! ### Readings that time does not change -/

@[simp] theorem cfg_reach : cfg (reach n s) = cfg s := by simp [cfg]
@[simp] theorem ownAddress_reach : ownAddress (reach n s) = ownAddress s := by simp [ownAddress]
@[simp] theorem findPeer_reach (a : Nat) : findPeer (reach n s) a = findPeer s a := by simp [findPeer]
@[simp] theorem knownPeer_reach (a : Nat) : knownPeer (reach n s) a = knownPeer s a := by simp [knownPeer]
@[simp] theorem findAsk_reach (a : Nat) : findAsk (reach n s) a = findAsk s a := by simp [findAsk]
@[simp] theorem attemptOf_reach : attemptOf (reach n s) = attemptOf s := by simp [attemptOf]
@[simp] theorem findSupply_reach (i : Nat) : findSupply (reach n s) i = findSupply s i := by simp [findSupply]

@[simp] theorem cfg_advance : cfg (advance n s) = cfg s := by simp [advance]
@[simp] theorem ownAddress_advance : ownAddress (advance n s) = ownAddress s := by simp [advance]
@[simp] theorem findPeer_advance (a : Nat) : findPeer (advance n s) a = findPeer s a := by simp [advance]
@[simp] theorem knownPeer_advance (a : Nat) : knownPeer (advance n s) a = knownPeer s a := by simp [advance]
@[simp] theorem findAsk_advance (a : Nat) : findAsk (advance n s) a = findAsk s a := by simp [advance]
@[simp] theorem attemptOf_advance : attemptOf (advance n s) = attemptOf s := by simp [advance]
@[simp] theorem findSupply_advance (i : Nat) : findSupply (advance n s) i = findSupply s i := by simp [advance]
@[simp] theorem normalRoom_advance : normalRoom (advance n s) = normalRoom s := by simp [normalRoom]
@[simp] theorem resultRoom_advance : resultRoom (advance n s) = resultRoom s := by simp [resultRoom]
@[simp] theorem takeable_advance : takeable (advance n s) = takeable s := by simp [takeable]
@[simp] theorem declareInLink_advance : declareInLink (advance n s) = declareInLink s := by simp [declareInLink]
@[simp] theorem builderIdle_advance : builderIdle (advance n s) = builderIdle s := by simp [builderIdle]

/-! ### happen -/

variable (shed : Bool) (dt : Nat) (effect : State → State)

/-- A happening of a station that is not held in reset. -/
theorem happen_of_not_held (h : s.control.resetHeld = false) :
    happen shed dt effect s = settle shed (advance dt s) (effect (advance dt s)) := by
  simp [happen, h]

/-- A station held in reset only lets time pass. -/
theorem happen_of_held (h : s.control.resetHeld = true) : happen shed dt effect s = advance dt s := by
  simp [happen, h]

end Sys2Proof.Machine
end

