-- ==== Sys2Proof/Laws/Outside.lean ====
section
/-! SUPPORT. The frame of the end of a happening: no operation that acts there changes anything but what `outside` blanks.
One lemma per operation, put together in `outside_settle`. -/

namespace Sys2Proof.Machine

/-! ### General -/

/-- A fold of steps that each keep a value keeps it. -/
theorem foldl_keeps {σ α β : Type} (v : σ → β) (g : σ → α → σ) (h : ∀ s a, v (g s a) = v s) (l : List α) (s : σ) :
    v (l.foldl g s) = v s := by
  induction l generalizing s with
  | nil => rfl
  | cons a l ih => rw [List.foldl_cons, ih, h]

theorem or_and_of_disjoint (x b m : BitVec 16) (h : b &&& m = 0) : (x ||| b) &&& m = x &&& m := by
  rw [BitVec.and_comm, BitVec.and_or_distrib_left]
  rw [BitVec.and_comm m x, BitVec.and_comm m b, h]; simp

theorem outside_setEvent (e : Event) (h : e.bit &&& ~~~endBits = 0) (s : State) : outside (setEvent e s) = outside s := by
  simp only [outside, setEvent, or_and_of_disjoint _ _ _ h]

@[simp] theorem outside_noteContracts (s : State) : outside (noteContracts s) = outside s :=
  outside_setEvent .contractsChanged (by decide) s

@[simp] theorem outside_noteChange (s : State) : outside (noteChange s) = outside s := by
  unfold noteChange; split <;> rfl

/-! ### Records -/

theorem outside_setTable (s : State) (l : List Record) : outside { s with engine.table := l } = outside s := rfl

@[simp] theorem outside_putRecord (r : Record) (s : State) : outside (putRecord r s) = outside s := by
  unfold putRecord
  split
  · rfl
  · dsimp only
    split <;> split <;> simp [outside_setTable]

@[simp] theorem outside_addRecord (r : Record) (s : State) : outside (addRecord r s) = outside s := by
  simp [addRecord, outside_setTable]

@[simp] theorem outside_dropRecords (p : Record → Bool) (s : State) : outside (dropRecords p s) = outside s := by
  unfold dropRecords; split <;> simp [outside_setTable]

@[simp] theorem outside_dropRecord (a i : Nat) (s : State) : outside (dropRecord a i s) = outside s :=
  outside_dropRecords _ s

/-! ### Queue and asks -/

@[simp] theorem outside_enqueue (f : OutFrame) (s : State) : outside (enqueue f s) = outside s := by
  unfold enqueue; split <;> rfl

@[simp] theorem outside_answer (d : Nat) (p : Payload) (s : State) : outside (answer d p s) = outside s :=
  outside_enqueue _ s

@[simp] theorem outside_releaseFrame (a : Ask) (s : State) : outside (releaseFrame a s) = outside s := by
  unfold releaseFrame; split <;> rfl

@[simp] theorem outside_removeAsk (a : Nat) (s : State) : outside (removeAsk a s) = outside s := by
  unfold removeAsk; split
  · rfl
  · rw [outside_releaseFrame]; rfl

@[simp] theorem outside_removeAllAsks (s : State) : outside (removeAllAsks s) = outside s :=
  foldl_keeps outside _ (fun t a => outside_removeAsk a t) _ s

@[simp] theorem outside_removeRaise (r : Record) (s : State) : outside (removeRaise r s) = outside s := by
  unfold removeRaise; split <;> simp

@[simp] theorem outside_updateAsk (a : Nat) (f : Ask → Ask) (s : State) : outside (updateAsk a f s) = outside s := rfl

/-! ### Notices, closing, recalls -/

@[simp] theorem outside_placeNotice (s : State) (r : Record) : outside (placeNotice s r) = outside s := by
  unfold placeNotice
  split
  · rfl
  · split
    · dsimp only; split <;> simp
    · rfl

@[simp] theorem outside_placeNotices (s : State) : outside (placeNotices s) = outside s :=
  foldl_keeps outside _ outside_placeNotice _ s

@[simp] theorem outside_closeTake (k : Notice) (r : Record) (s : State) : outside (closeTake k r s) = outside s := by
  simp [closeTake]

@[simp] theorem outside_closeAllTake (s : State) : outside (closeAllTake s) = outside s :=
  foldl_keeps outside _ (fun t r => outside_closeTake .release r t) _ s

@[simp] theorem outside_startRecall (n : Nat) (r : Record) (s : State) : outside (startRecall n r s) = outside s :=
  outside_putRecord _ s

@[simp] theorem outside_resolveRecall (a : Nat) (v : Revision) (r : Record) (s : State) :
    outside (resolveRecall a v r s) = outside s := by
  unfold resolveRecall; split
  · split <;> simp
  · rfl

/-! ### Requests -/

@[simp] theorem outside_complete (tag kind : Byte) (c : ResultCode) (data : List Byte) (s : State) :
    outside (complete tag kind c data s) = outside s := by
  unfold complete
  rw [outside_setEvent _ (by decide)]
  rfl

@[simp] theorem outside_finish (q : Request) (c : ResultCode) (s : State) : outside (finish q c s) = outside s :=
  outside_complete ..

@[simp] theorem outside_completeLong (c : ResultCode) (s : State) : outside (completeLong c s) = outside s := by
  unfold completeLong; split
  · rfl
  · rw [outside_complete]; rfl

@[simp] theorem outside_becomeLong (k : LongKind) (q : Request) (s : State) : outside (becomeLong k q s) = outside s := rfl

/-! ### The builder -/

@[simp] theorem outside_dueFinal (s : State) : outside (dueFinal s) = outside s := rfl

@[simp] theorem outside_builderTurn (pre s : State) : outside (builderTurn pre s) = outside s := by
  have h1 : outside (noteDeclared pre s) = outside s := by unfold noteDeclared; split <;> simp
  have h2 : ∀ t, outside (dueByChange t) = outside t := by intro t; unfold dueByChange; split <;> rfl
  have h3 : ∀ t, outside (placeDeclare t) = outside t := by
    intro t; unfold placeDeclare; split
    · split
      · rfl
      · split <;> rfl
    · rfl
  rw [builderTurn, h3, h2, h1]

/-! ### The engine's turn -/

@[simp] theorem outside_recallAll (s : State) : outside (recallAll s) = outside s :=
  foldl_keeps outside _ (fun t r => outside_startRecall 0 r t) _ s

@[simp] theorem outside_planRecalls (pre s : State) : outside (planRecalls pre s) = outside s := by
  unfold planRecalls; split
  · refine foldl_keeps outside _ (fun t r => ?_) _ s
    unfold planOne; split <;> simp
  · simp
  · rfl

@[simp] theorem outside_trimExcess (s : State) : outside (trimExcess s) = outside s := by
  unfold trimExcess; split
  · refine foldl_keeps outside _ (fun t r => ?_) _ s
    unfold trimOne; split
    · rfl
    · dsimp only; split <;> simp
  · rfl

@[simp] theorem outside_setRole (s : State) (r : Role) : outside { s with engine.role := r } = outside s := rfl

@[simp] theorem outside_checkDrain (s : State) : outside (checkDrain s) = outside s := by
  have h : ∀ t p, outside (endDrain t p s) = outside s := by
    intro t p; unfold endDrain; dsimp only; split <;> simp
  unfold checkDrain; split
  · split <;> simp [h]
  · split <;> simp [h]
  · rfl

@[simp] theorem outside_requeueAsks (n : Nat) (s : State) : outside (requeueAsks n s) = outside s := by
  induction n generalizing s with
  | zero => rfl
  | succ n ih =>
    unfold requeueAsks; split
    · rfl
    · split
      · dsimp only
        rw [ih]
        exact outside_enqueue _ s
      · rfl

@[simp] theorem outside_startAsk (p : Peer) (s : State) : outside (startAsk p s) = outside s := by
  unfold startAsk
  exact outside_enqueue (askFrame (newAsk p s) s.engine.nextRef) s

@[simp] theorem outside_startAsks (n : Nat) (s : State) : outside (startAsks n s) = outside s := by
  induction n generalizing s with
  | zero => rfl
  | succ n ih =>
    unfold startAsks; split
    · split
      · rw [ih, outside_startAsk]
      · rfl
    · rfl

@[simp] theorem outside_engineSettle (pre s : State) : outside (engineSettle pre s) = outside s := by
  unfold engineSettle; split
  · dsimp only; split <;> simp
  · rfl

/-! ### The path and the outputs -/

@[simp] theorem outside_movePath (s : State) : outside (movePath s) = outside s := by
  unfold movePath; dsimp only; split <;> (try split) <;> rfl

@[simp] theorem outside_openShed (b : Bool) (pre mid s : State) : outside (openShed b pre mid s) = outside s := by
  unfold openShed; split <;> rfl

@[simp] theorem outside_moveTimer (s : State) : outside (moveTimer s) = outside s := by
  unfold moveTimer; split <;> rfl

@[simp] theorem outside_pathSettle (b : Bool) (pre mid s : State) : outside (pathSettle b pre mid s) = outside s := by
  simp [pathSettle]

@[simp] theorem outside_changeEvents (pre s : State) : outside (changeEvents pre s) = outside s := by
  have h1 := outside_setEvent .stateChanged (by decide)
  have h2 := outside_setEvent .roleChanged (by decide)
  unfold changeEvents; dsimp only
  split <;> split <;> simp [h1, h2]

@[simp] theorem outside_drive (s : State) : outside (drive s) = outside s := rfl

/-- The end of a happening changes nothing outside what `outside` blanks. -/
@[simp] theorem outside_settle (b : Bool) (pre mid : State) : outside (settle b pre mid) = outside mid := by
  unfold settle; split <;> simp

end Sys2Proof.Machine
end

