-- ==== Sys2Proof/Laws/Table.lean ====
section
/-! SUPPORT. What the engine's operations can do to the Contract Table: they change and remove records, and none adds one.
`Traced s t` says so of a whole run of operations; each operation has one lemma. -/

namespace Sys2Proof.Machine

/-- r is a later form of q: the same contract on the same side with the same counterpart; a taker-side record that was
ACTIVE or CLOSING still is, and one that was CLOSING stays CLOSING (R7, R8). -/
def Record.Follows (q r : Record) : Prop :=
  r.supplier = q.supplier ∧ r.id = q.id ∧ r.side = q.side ∧ r.counterpart = q.counterpart
    ∧ (q.side = .take → q.state = .active ∨ q.state = .closing → r.state = .active ∨ r.state = .closing)
    ∧ (q.side = .take → q.state = .closing → r.state = .closing)

theorem Record.Follows.refl (r : Record) : r.Follows r := ⟨rfl, rfl, rfl, rfl, fun _ h => h, fun _ h => h⟩

theorem Record.Follows.trans {p q r : Record} (h : p.Follows q) (k : q.Follows r) : p.Follows r := by
  obtain ⟨h1, h2, h3, h4, h5, h6⟩ := h
  obtain ⟨k1, k2, k3, k4, k5, k6⟩ := k
  refine ⟨k1.trans h1, k2.trans h2, k3.trans h3, k4.trans h4, fun a b => ?_, fun a b => ?_⟩
  · exact k5 (h3.trans a) (h5 a b)
  · exact k6 (h3.trans a) (h6 a b)

/-- A form of a table's record. -/
def Of (l : List Record) (r : Record) : Prop := ∃ q ∈ l, q.Follows r

theorem Of.self {l : List Record} {r : Record} (h : r ∈ l) : Of l r := ⟨r, h, .refl r⟩

theorem Of.next {l : List Record} {q r : Record} (h : Of l q) (k : q.Follows r) : Of l r := by
  obtain ⟨p, hp, hq⟩ := h
  exact ⟨p, hp, hq.trans k⟩

/-- Every record of a state is a form of a record of the table l. -/
def Traced (l : List Record) (t : State) : Prop := ∀ r ∈ t.engine.table, Of l r

theorem Traced.refl (s : State) : Traced s.engine.table s := fun _ h => .self h

theorem Traced.trans {l : List Record} {t u : State} (h : Traced l t) (k : Traced t.engine.table u) : Traced l u := by
  intro r hr
  obtain ⟨q, hq, hf⟩ := k r hr
  exact (h q hq).next hf

theorem Traced.of_table {l : List Record} {t u : State} (h : Traced l t) (e : u.engine.table = t.engine.table) :
    Traced l u := fun r hr => h r (e ▸ hr)

/-- A fold over records of the table keeps the trace. -/
theorem Traced.foldl {l : List Record} (g : State → Record → State)
    (hg : ∀ t r, Traced l t → Of l r → Traced l (g t r)) (rs : List Record) (hr : ∀ r ∈ rs, Of l r) (t : State)
    (ht : Traced l t) : Traced l (rs.foldl g t) := by
  induction rs generalizing t with
  | nil => exact ht
  | cons r rs ih =>
    exact ih (fun x hx => hr x (List.mem_cons_of_mem _ hx)) _ (hg t r ht (hr r List.mem_cons_self))

@[simp] theorem noteChange_control (s : State) : (noteChange s).control = s.control := by
  unfold noteChange; split <;> rfl
@[simp] theorem noteChange_peers (s : State) : (noteChange s).peers = s.peers := by
  unfold noteChange; split <;> rfl
@[simp] theorem noteChange_link (s : State) : (noteChange s).link = s.link := by
  unfold noteChange; split <;> rfl
@[simp] theorem noteChange_path (s : State) : (noteChange s).path = s.path := by
  unfold noteChange; split <;> rfl
@[simp] theorem noteChange_host (s : State) : (noteChange s).host = s.host := by
  unfold noteChange; split <;> rfl
@[simp] theorem noteChange_table (s : State) : (noteChange s).engine.table = s.engine.table := by
  unfold noteChange; split <;> rfl
@[simp] theorem noteChange_asks (s : State) : (noteChange s).engine.asks = s.engine.asks := by
  unfold noteChange; split <;> rfl
@[simp] theorem noteChange_role (s : State) : (noteChange s).engine.role = s.engine.role := by
  unfold noteChange; split <;> rfl

/-- The table after `putRecord`: the records with the key are replaced. -/
theorem putRecord_table (n : Record) (s : State) :
    (putRecord n s).engine.table = s.engine.table.map fun r => if r.hasKey n.supplier n.id then n else r := by
  unfold putRecord
  split
  · rename_i h
    symm
    refine (List.map_congr_left fun r hr => ?_).trans (List.map_id _)
    have := List.find?_eq_none.mp h r hr
    simp_all
  · dsimp only
    split <;> split <;> simp

theorem mem_putRecord {n r : Record} {s : State} (h : r ∈ (putRecord n s).engine.table) :
    r = n ∨ r ∈ s.engine.table := by
  rw [putRecord_table] at h
  obtain ⟨q, hq, rfl⟩ := List.mem_map.mp h
  by_cases hk : q.hasKey n.supplier n.id = true
  · simp [hk]
  · simp [hk, hq]

theorem dropRecords_table (p : Record → Bool) (s : State) :
    (dropRecords p s).engine.table = s.engine.table.filter fun r => !p r := by
  unfold dropRecords
  split
  · simp
  · rename_i h
    symm
    rw [List.filter_eq_self]
    intro r hr
    have : ¬ s.engine.table.any p = true := h
    simp only [List.any_eq_true, not_exists, not_and] at this
    simpa using this r hr

theorem Traced.putRecord {l : List Record} {t : State} {r n : Record} (ht : Traced l t) (hr : Of l r)
    (hf : r.Follows n) : Traced l (putRecord n t) := by
  intro x hx
  rcases mem_putRecord hx with rfl | h
  · exact hr.next hf
  · exact ht x h

theorem Traced.dropRecords {l : List Record} {t : State} (p : Record → Bool) (ht : Traced l t) :
    Traced l (dropRecords p t) := by
  intro x hx
  rw [dropRecords_table] at hx
  exact ht x (List.mem_filter.mp hx).1

theorem Traced.dropRecord {l : List Record} {t : State} (a i : Nat) (ht : Traced l t) : Traced l (dropRecord a i t) :=
  ht.dropRecords _

/-! ### Operations that leave the table alone -/

@[simp] theorem enqueue_engine (f : OutFrame) (s : State) : (enqueue f s).engine = s.engine := by
  unfold enqueue; split <;> rfl

@[simp] theorem releaseFrame_engine (a : Ask) (s : State) : (releaseFrame a s).engine = s.engine := by
  unfold releaseFrame; split <;> rfl

@[simp] theorem removeAsk_table (a : Nat) (s : State) : (removeAsk a s).engine.table = s.engine.table := by
  unfold removeAsk; split <;> simp

@[simp] theorem removeRaise_table (r : Record) (s : State) : (removeRaise r s).engine.table = s.engine.table := by
  unfold removeRaise; split <;> simp

@[simp] theorem removeAllAsks_table (s : State) : (removeAllAsks s).engine.table = s.engine.table := by
  unfold removeAllAsks
  generalize s.engine.asks.map Ask.supplier = l
  induction l generalizing s with
  | nil => rfl
  | cons a l ih => rw [List.foldl_cons, ih, removeAsk_table]

@[simp] theorem completeLong_engine (c : ResultCode) (s : State) : (completeLong c s).engine = s.engine := by
  unfold completeLong; split <;> rfl

@[simp] theorem builderTurn_table (pre s : State) : (builderTurn pre s).engine.table = s.engine.table := by
  have h1 : (noteDeclared pre s).engine.table = s.engine.table := by unfold noteDeclared; split <;> simp
  have h2 : ∀ t, (dueByChange t).engine.table = t.engine.table := by intro t; unfold dueByChange; split <;> rfl
  have h3 : ∀ t, (placeDeclare t).engine.table = t.engine.table := by
    intro t; unfold placeDeclare; split
    · split
      · rfl
      · split <;> rfl
    · rfl
  rw [builderTurn, h3, h2, h1]

@[simp] theorem checkDrain_table (s : State) : (checkDrain s).engine.table = s.engine.table := by
  have h : ∀ t p, (endDrain t p s).engine.table = s.engine.table := by
    intro t p; unfold endDrain; dsimp only; split <;> simp [dueFinal]
  unfold checkDrain; split
  · split <;> simp [h]
  · split <;> simp [h]
  · rfl

@[simp] theorem requeueAsks_table (n : Nat) (s : State) : (requeueAsks n s).engine.table = s.engine.table := by
  induction n generalizing s with
  | zero => rfl
  | succ n ih =>
    unfold requeueAsks; split
    · rfl
    · split
      · rw [ih]; simp
      · rfl

@[simp] theorem startAsk_table (p : Peer) (s : State) : (startAsk p s).engine.table = s.engine.table := by
  simp [startAsk]

@[simp] theorem startAsks_table (n : Nat) (s : State) : (startAsks n s).engine.table = s.engine.table := by
  induction n generalizing s with
  | zero => rfl
  | succ n ih =>
    unfold startAsks; split
    · split
      · rw [ih, startAsk_table]
      · rfl
    · rfl

/-! ### Operations that change records -/

/-- A record keeps its contract when only its amount, revision, owed notice and miss count change. -/
theorem Record.follows_same_state (r : Record) (a : Nat) (v : Revision) (o : Option Notice) (m : Nat) :
    r.Follows { r with amount := a, revision := v, owed := o, miss := m } :=
  ⟨rfl, rfl, rfl, rfl, fun _ h => h, fun _ h => h⟩

/-- Closing a record. -/
theorem Record.follows_closing (r : Record) (v : Revision) (o : Option Notice) :
    r.Follows { r with revision := v, state := .closing, owed := o } :=
  ⟨rfl, rfl, rfl, rfl, fun _ _ => .inr rfl, fun _ _ => rfl⟩

/-- A supplier-side record may enter any state. -/
theorem Record.follows_supply (r : Record) (h : r.side = .supply) (a : Nat) (v : Revision) (x : RecordState)
    (o : Option Notice) (m : Nat) : r.Follows { r with amount := a, revision := v, state := x, owed := o, miss := m } := by
  refine ⟨rfl, rfl, rfl, rfl, fun k => ?_, fun k => ?_⟩ <;> simp [h] at k

theorem Traced.placeNotice {l : List Record} {t : State} {r : Record} (ht : Traced l t) (hr : Of l r) :
    Traced l (placeNotice t r) := by
  unfold Machine.placeNotice
  split
  · exact ht
  · split
    · rename_i k _ _
      dsimp only
      have he : Traced l (enqueue (noticeFrame r k) t) := ht.of_table (by rw [enqueue_engine])
      split
      · exact he.dropRecord _ _
      · exact he.putRecord hr (r.follows_same_state r.amount r.revision none r.miss)
    · exact ht

theorem Traced.placeNotices {l : List Record} {t : State} (ht : Traced l t) : Traced l (placeNotices t) :=
  ht.trans (Traced.foldl _ (fun _ _ h k => h.placeNotice k) _ (fun _ h => .self h) t (.refl t))

theorem Traced.closeTake {l : List Record} {t : State} {r : Record} (k : Notice) (ht : Traced l t) (hr : Of l r) :
    Traced l (closeTake k r t) :=
  (ht.putRecord hr (r.follows_closing r.revision (some k))).of_table (removeRaise_table _ _)

theorem Traced.closeAllTake {l : List Record} {t : State} (ht : Traced l t) : Traced l (closeAllTake t) :=
  ht.trans (Traced.foldl _ (fun _ _ h k => h.closeTake .release k) _
    (fun _ h => .self (List.mem_filter.mp h).1) t (.refl t))

theorem Traced.startRecall {l : List Record} {t : State} {r : Record} (n : Nat) (hs : r.isSupply = true)
    (ht : Traced l t) (hr : Of l r) : Traced l (startRecall n r t) :=
  ht.putRecord hr (r.follows_supply (by simpa [Record.isSupply] using hs) r.amount r.revision _ _ r.miss)

theorem Traced.recallAll {l : List Record} {t : State} (ht : Traced l t) : Traced l (recallAll t) := by
  refine ht.trans ?_
  unfold Machine.recallAll
  have : ∀ rs : List Record, (∀ r ∈ rs, Of t.engine.table r ∧ r.isSupply = true) → ∀ u, Traced t.engine.table u →
      Traced t.engine.table (rs.foldl (fun x r => Machine.startRecall 0 r x) u) := by
    intro rs
    induction rs with
    | nil => intro _ u hu; exact hu
    | cons r rs ih =>
      intro h u hu
      exact ih (fun x hx => h x (List.mem_cons_of_mem _ hx)) _
        (hu.startRecall 0 (h r List.mem_cons_self).2 (h r List.mem_cons_self).1)
  refine this _ (fun r hr => ?_) t (.refl t)
  have := List.mem_filter.mp hr
  exact ⟨.self this.1, by simp_all⟩

theorem mem_planOrder {pre s : State} {r : Record} (h : r ∈ planOrder pre s) :
    r ∈ s.engine.table ∧ r.isSupply = true := by
  simp only [planOrder, List.mem_append, List.mem_reverse, List.mem_filter] at h
  rcases h with h | h <;> simp_all

theorem Traced.planRecalls {l : List Record} {t : State} (pre : State) (ht : Traced l t) :
    Traced l (planRecalls pre t) := by
  unfold Machine.planRecalls
  split
  · refine ht.trans ?_
    have : ∀ rs : List Record, (∀ r ∈ rs, Of t.engine.table r ∧ r.isSupply = true) → ∀ u, Traced t.engine.table u →
        Traced t.engine.table (rs.foldl planOne u) := by
      intro rs
      induction rs with
      | nil => intro _ u hu; exact hu
      | cons r rs ih =>
        intro h u hu
        refine ih (fun x hx => h x (List.mem_cons_of_mem _ hx)) _ ?_
        unfold planOne
        split
        · exact hu
        · exact hu.startRecall _ (h r List.mem_cons_self).2 (h r List.mem_cons_self).1
    exact this _ (fun r hr => ⟨.self (mem_planOrder hr).1, (mem_planOrder hr).2⟩) t (.refl t)
  · exact ht.recallAll
  · exact ht

theorem Traced.trimOne {l : List Record} {t : State} {r : Record} (ht : Traced l t) (hr : Of l r) :
    Traced l (trimOne t r) := by
  unfold Machine.trimOne
  split
  · exact ht
  · dsimp only
    split
    · exact ht.closeTake .release hr
    · exact ht.putRecord hr (r.follows_same_state _ _ _ r.miss)

theorem Traced.trimExcess {l : List Record} {t : State} (ht : Traced l t) : Traced l (trimExcess t) := by
  unfold Machine.trimExcess
  split
  · exact ht.trans (Traced.foldl _ (fun _ _ h k => h.trimOne k) _ (fun _ h => .self (List.mem_reverse.mp h)) t (.refl t))
  · exact ht

theorem Traced.engineSettle {l : List Record} {t : State} (pre : State) (ht : Traced l t) :
    Traced l (engineSettle pre t) := by
  unfold Machine.engineSettle
  split
  · dsimp only
    have h1 := (ht.planRecalls pre).trimExcess
    refine Traced.of_table (t := Machine.placeNotices
      (if pre.link.normal.length < normalPlaces then Machine.trimExcess (Machine.planRecalls pre t)
        else Machine.builderTurn pre (Machine.trimExcess (Machine.planRecalls pre t)))) ?_ (by simp)
    refine Traced.placeNotices ?_
    split
    · exact h1
    · exact h1.of_table (builderTurn_table _ _)
  · exact ht

@[simp] theorem movePath_engine (s : State) : (movePath s).engine = s.engine := by
  unfold movePath; dsimp only; split <;> (try split) <;> rfl

@[simp] theorem openShed_engine (b : Bool) (pre mid s : State) : (openShed b pre mid s).engine = s.engine := by
  unfold openShed; split <;> rfl

@[simp] theorem moveTimer_engine (s : State) : (moveTimer s).engine = s.engine := by
  unfold moveTimer; split <;> rfl

@[simp] theorem pathSettle_engine (b : Bool) (pre mid s : State) : (pathSettle b pre mid s).engine = s.engine := by
  simp [pathSettle]

@[simp] theorem changeEvents_engine (pre s : State) : (changeEvents pre s).engine = s.engine := by
  unfold changeEvents; dsimp only; split <;> split <;> rfl

/-- The end of a happening adds no record: every record it leaves is a form of one it found. -/
theorem Traced.settle (b : Bool) (pre mid : State) : Traced mid.engine.table (settle b pre mid) := by
  unfold Machine.settle
  split
  · exact .refl mid
  · exact ((Traced.refl mid).engineSettle pre).of_table (by simp)

end Sys2Proof.Machine
end

