-- ==== Sys2Proof/Laws/Closing.lean ====
section
/-! SUPPORT. What closing, recalling and removing asks achieve: no ACTIVE taker-side record, no ACTIVE supplier-side record,
no ask. -/

namespace Sys2Proof.Machine

/-- A replacement by a record that fails a test leaves no record of its key that meets it. -/
theorem mem_putRecord_of_key {n r : Record} {s : State} (h : r ∈ (putRecord n s).engine.table) :
    r = n ∨ (r ∈ s.engine.table ∧ ¬ (r.supplier = n.supplier ∧ r.id = n.id)) := by
  rw [putRecord_table] at h
  obtain ⟨q, hq, rfl⟩ := List.mem_map.mp h
  by_cases hk : q.hasKey n.supplier n.id = true
  · simp [hk]
  · right
    simp only [hk, Bool.false_eq_true, ↓reduceIte]
    refine ⟨hq, ?_⟩
    simpa [Record.hasKey] using hk

/-- A fold that replaces each record of a list by one that fails a test: no record of the list's keys still meets it. -/
theorem foldl_replaces (bad : Record → Prop) (g : State → Record → State) (new : State → Record → Record)
    (hg : ∀ t r, (g t r).engine.table = (putRecord (new t r) t).engine.table)
    (hk : ∀ t r, (new t r).supplier = r.supplier ∧ (new t r).id = r.id) (hn : ∀ t r, ¬ bad (new t r)) (rs : List Record)
    (t : State)
    (ht : ∀ r ∈ t.engine.table, bad r → ∃ x ∈ rs, x.supplier = r.supplier ∧ x.id = r.id) :
    ∀ r ∈ (rs.foldl g t).engine.table, ¬ bad r := by
  induction rs generalizing t with
  | nil =>
    intro r hr hb
    obtain ⟨x, hx, -⟩ := ht r hr hb
    cases hx
  | cons a rs ih =>
    refine ih (g t a) fun r hr hb => ?_
    rw [hg] at hr
    rcases mem_putRecord_of_key hr with rfl | ⟨hr, hne⟩
    · exact absurd hb (hn t a)
    · obtain ⟨x, hx, he⟩ := ht r hr hb
      rcases List.mem_cons.mp hx with rfl | hx
      · exact absurd (by rw [(hk t x).1, (hk t x).2]; exact ⟨he.1.symm, he.2.symm⟩) hne
      · exact ⟨x, hx, he⟩

/-- After closing every ACTIVE taker-side record none is left. -/
theorem closeAllTake_none (s : State) :
    ∀ r ∈ (closeAllTake s).engine.table, r.side = .take → r.state ≠ .active := by
  have := foldl_replaces (fun r => r.side = .take ∧ r.state = .active) (fun t r => closeTake .release r t)
    (fun _ r => { r with state := .closing, owed := some .release }) (fun t r => by simp [closeTake])
    (fun _ _ => ⟨rfl, rfl⟩) (by simp) (s.engine.table.filter fun r => r.isTake && r.isActive) s
    (fun r hr hb => ⟨r, by simp [List.mem_filter, hr, Record.isTake, Record.isActive, hb], rfl, rfl⟩)
  intro r hr ht ha
  exact this r hr ⟨ht, ha⟩

/-- After recalling every ACTIVE supplier-side record none is left. -/
theorem recallAll_none (s : State) :
    ∀ r ∈ (recallAll s).engine.table, r.side = .supply → r.state ≠ .active := by
  have := foldl_replaces (fun r => r.side = .supply ∧ r.state = .active) (fun t r => startRecall 0 r t)
    (fun t r => { r with
      state := .recalling 0 (r.revision + 1) (t.now + ms (cfg t).recallTimeout), owed := some .recall })
    (fun t r => rfl) (fun _ _ => ⟨rfl, rfl⟩) (by simp)
    (s.engine.table.filter fun r => r.isSupply && r.isActive) s
    (fun r hr hb => ⟨r, by simp [List.mem_filter, hr, Record.isSupply, Record.isActive, hb], rfl, rfl⟩)
  intro r hr ht ha
  exact this r hr ⟨ht, ha⟩

@[simp] theorem releaseFrame_asks (a : Ask) (s : State) : (releaseFrame a s).engine.asks = s.engine.asks := by
  unfold releaseFrame; split <;> rfl

/-- Removing the ask to a supplier leaves the asks to others. -/
theorem removeAsk_asks (a : Nat) (s : State) :
    (removeAsk a s).engine.asks = s.engine.asks.filter fun b => b.supplier != a := by
  unfold removeAsk
  split
  · rename_i h
    symm
    rw [List.filter_eq_self]
    intro b hb
    have := List.find?_eq_none.mp h b hb
    simpa using this
  · simp

theorem foldl_removeAsk_asks (l : List Nat) (s : State) :
    (l.foldl (fun t a => removeAsk a t) s).engine.asks = s.engine.asks.filter fun b => !l.contains b.supplier := by
  induction l generalizing s with
  | nil => simp
  | cons a l ih =>
    rw [List.foldl_cons, ih, removeAsk_asks, List.filter_filter]
    refine List.filter_congr fun b _ => ?_
    simp [bne, Bool.and_comm, beq_eq_decide]

/-- Removing every ask leaves none. -/
@[simp] theorem removeAllAsks_asks (s : State) : (removeAllAsks s).engine.asks = [] := by
  unfold removeAllAsks
  rw [foldl_removeAsk_asks, List.filter_eq_nil_iff]
  intro b hb
  simpa using ⟨b, hb, rfl⟩

/-- Closing records takes away asks only. -/
theorem closeTake_asks_sub (k : Notice) (r : Record) (s : State) :
    ∀ a ∈ (closeTake k r s).engine.asks, a ∈ s.engine.asks := by
  have h : ∀ n, (putRecord n s).engine.asks = s.engine.asks := by
    intro n; unfold putRecord; split
    · rfl
    · dsimp only; split <;> split <;> simp
  unfold closeTake removeRaise
  intro a ha
  split at ha
  · rw [removeAsk_asks, h] at ha
    exact (List.mem_filter.mp ha).1
  · rwa [h] at ha

theorem closeAllTake_asks_sub (s : State) : ∀ a ∈ (closeAllTake s).engine.asks, a ∈ s.engine.asks := by
  unfold closeAllTake
  generalize s.engine.table.filter _ = rs
  induction rs generalizing s with
  | nil => exact fun _ h => h
  | cons r rs ih => exact fun a ha => closeTake_asks_sub .release r s a (ih _ a ha)

/-- With no ask, closing records leaves none. -/
theorem closeAllTake_asks_nil {s : State} (h : s.engine.asks = []) : (closeAllTake s).engine.asks = [] := by
  rw [List.eq_nil_iff_forall_not_mem]
  intro a ha
  have := closeAllTake_asks_sub s a ha
  simp [h] at this

end Sys2Proof.Machine
end

