-- ==== Sys2Proof/Laws/Situations.lean ====
section
/-! SUPPORT. What the shared operations come to in the situations that claims name: a request taken, a frame consumed, a
frame received, an attempt in progress. -/

namespace Sys2Proof.Machine

/-! ### Bytes of two-byte regions -/

theorem ofNat_high (v : BitVec 16) : BitVec.ofNat 8 (v.toNat / 256) = (v >>> 8).setWidth 8 := by
  apply BitVec.eq_of_toNat_eq
  simp [Nat.shiftRight_eq_div_pow]

/-- The upper byte of a region, in its place. -/
theorem upper_high (v : BitVec 16) : upper (BitVec.ofNat 8 (v.toNat / 256)) = v &&& 0xFF00 := by
  rw [ofNat_high, upper]
  ext i hi
  simp only [BitVec.getElem_and]
  interval_cases i <;> simp

/-- The lower byte of a region, in its place. -/
theorem lower_low (v : BitVec 16) : lower (v.setWidth 8) = v &&& 0x00FF := by
  rw [lower]
  ext i hi
  interval_cases i <;> simp

/-- A pointer below 0x100 as the two bytes that set it. -/
theorem upper_zero_or (b : Byte) : upper 0#8 ||| lower b = b.setWidth 16 := by simp [upper, lower]

/-! ### Requests -/

/-- Time does not change what the station is ready to take. -/
theorem Taking.advance {k : Nat} {q : Request} {rest : List Request} {s : State} (h : Taking k q rest s) (dt : Nat) :
    Taking k q rest (advance dt s) := by
  simpa [Taking] using h

/-- The request that the station is ready to take. -/
theorem takeable_of_taking {k : Nat} {q : Request} {rest : List Request} {s : State} (h : Taking k q rest s) :
    takeable s = some q := by
  obtain ⟨-, h2, h3, -, h5⟩ := h
  simp [takeable, h3, h2, h5]

/-- A pop that serves the head request: it waited for a place, and may be taken once the oldest result is gone. -/
theorem popServes_spec {s : State} (h : popServes s = true) :
    takeable s = none ∧ ∃ q, takeable (popResult s) = some q := by
  simpa [popServes, Option.isSome_iff_exists] using h

/-- A pop changes nothing but the Result Queue, so that a request it serves finds every table as it stood. -/
theorem popResult_frame (s : State) :
    popResult s = { s with host := { s.host with results := s.host.results.drop 1 } } := rfl

/-- The state with the head request gone and a result place reserved for it (R160). -/
def reservedFor (rest : List Request) (s : State) : State :=
  { s with host := { s.host with requests := rest, reserved := s.host.reserved + 1 } }

/-- A taken request is judged with a result place reserved. -/
theorem takeOf_of_taking {k : Nat} {q : Request} {rest : List Request} {s : State} (h : Taking k q rest s)
    (p : Nat → Bool) (hp : p k = true) : takeOf p s = judge q (reservedFor rest s) := by
  simp [takeOf, takeable_of_taking h, h.2.2.2.1, hp, removeHead, h.2.2.1, reservedFor]

/-- Completing the request taken: its result takes the reserved place. -/
theorem finish_reservedFor (q : Request) (rest : List Request) (code : ResultCode) (s : State) :
    finish q code (reservedFor rest s) = completed q rest code [] s := by
  simp [finish, complete, completed, setEvent, reservedFor]

/-! ### Consumption -/

/-- The head of the inbound queue is consumed by the rule for its kind. -/
theorem consume_of_accepted {f : Frame} {rest : List Frame} {s : State} (h2 : s.control.station.speaks = true)
    (h3 : normalRoom s = true) (h4 : s.link.inbound = f :: rest) (ha : accepted f (consumed rest s) = true)
    (act : Frame → State → State) : consume f.body.kind act s = act f (consumed rest s) := by
  unfold consume
  rw [h2, h3, h4]
  simp only [Bool.and_self, ↓reduceIte]
  exact if_pos ha

/-- Time does not change what the engine may consume. -/
theorem Consuming.advance {f : Frame} {rest : List Frame} {s : State} (h : Consuming f rest s) (dt : Nat) :
    Consuming f rest (advance dt s) := by
  simpa [Consuming] using h

/-- In a claim's terms, for every kind but DECLARE, which the incarnation decides. -/
theorem consume_of_consuming {f : Frame} {rest : List Frame} {s : State} (h : Consuming f rest s) {k : Nat}
    (hk : f.body.kind = k) (hd : k ≠ 1) (act : Frame → State → State) :
    consume k act s = act f (consumed rest s) := by
  obtain ⟨-, h2, h3, h4, h5, h6⟩ := h
  subst hk
  refine consume_of_accepted h2 h3 h4 ?_ act
  have : knownPeer (consumed rest s) f.src = true := by simpa [knownPeer, consumed] using h5
  cases hb : f.body <;> simp_all [accepted, Payload.kind]

/-! ### The station's marks -/

/-- Replacing the record of a key, told as one update: the amount or the closing makes a change pending, a visible
difference sets CONTRACTS_CHANGED. -/
theorem putRecord_of_found {old new : Record} {s : State} (h : findRecord new.supplier new.id s.engine.table = some old)
    (hv : old.visible ≠ new.visible)
    (hc : old.amount ≠ new.amount ∨ new.isClosing = true ∧ old.isClosing = false)
    (hs : s.control.station.speaks = true) : putRecord new s = withRecord new s := by
  unfold putRecord
  rw [h]
  simp only [hv, ↓reduceIte, hc]
  simp [noteChange, noteContracts, setEvent, hs, withRecord, Record.hasKey]

/-- Appending a record where the builder acts. -/
theorem addRecord_eq (r : Record) {s : State} (hs : s.control.station.speaks = true) :
    addRecord r s = withNewRecord r s := by
  simp [addRecord, noteChange, noteContracts, setEvent, hs, withNewRecord]

/-- Removing a record that is there, where the builder acts. -/
theorem dropRecord_of_found {a i : Nat} {s : State} {r : Record} (h : findRecord a i s.engine.table = some r)
    (hs : s.control.station.speaks = true) : dropRecord a i s = withoutRecord a i s := by
  have : s.engine.table.any (Record.hasKey a i) = true := by
    rw [List.any_eq_true]
    exact ⟨r, List.mem_of_find?_eq_some h, List.find?_some h⟩
  simp [dropRecord, dropRecords, this, noteChange, noteContracts, setEvent, hs, withoutRecord, Record.hasKey, beq_eq_decide]

/-- Removing the pending ask to a supplier. -/
theorem removeAsk_of_found {a : Nat} {x : Ask} {s : State} (h : findAsk s a = some x) :
    removeAsk a s = withoutAsk x s := by
  have : x.supplier = a := by simpa using List.find?_some h
  unfold removeAsk
  rw [h]
  simp only [releaseFrame, withoutAsk, withdraw, this]
  split <;> simp_all [bne, beq_eq_decide]

/-- Placing an answer where the queue has a place. -/
theorem answer_of_room {s : State} (h : normalRoom s = true) (dst : Nat) (p : Payload) :
    answer dst p s = withFrame dst p s := by
  simp [answer, enqueue, h, withFrame]

/-- Ending an ask without a grant. -/
theorem failAsk_of_found {a : Nat} {x : Ask} {s : State} (h : findAsk s a = some x) :
    failAsk a s = skipping a (withoutAsk x s) := by
  simp [failAsk, removeAsk_of_found h, setSkip, updatePeer, skipping]

/-! ### Reception -/

/-- Time does not change what the station receives. -/
theorem Receiving.advance {r : Reception} {f : Frame} {s : State} (h : Receiving r f s) (dt : Nat) :
    Receiving r f (advance dt s) := by
  obtain ⟨h1, h2, h3, h4, h5, h6⟩ := h
  exact ⟨by simpa using h1, by simpa using h2, h3, by simpa using h4, advance_ackOut_of_none dt s h5, by simpa using h6⟩

/-- A valid frame from another station is heard, and then has the effect of its kind. -/
theorem onReception_of_receiving {r : Reception} {f : Frame} {s : State} (h : Receiving r f s) (rest : State → State)
    (fails : Bool) : onReception r (onFrame f rest) fails s = rest (heard f s) := by
  obtain ⟨-, -, -, h4, h5, h6⟩ := h
  have e : lineIdle (receptionEnd r s) = { s with link := { s.link with idleSince := some s.now } } := by
    simp [lineIdle, receptionEnd, driveEnd, h5, h6]
  have a : attemptOf ({ s with link := { s.link with idleSince := some s.now } } : State) = none := by
    simpa [attemptOf] using h6
  have o : ownAddress ({ s with link := { s.link with idleSince := some s.now } } : State) = ownAddress s := rfl
  simp [onReception, e, inWindow, a, onFrame, h4, o, hear, heard, updatePeer]

/-- The entry of an address among entries changed in place. -/
theorem find?_map_of_addr (g : Peer → Peer) (hg : ∀ p, (g p).addr = p.addr) (a : Nat) (l : List Peer) :
    (l.map g).find? (fun p => p.addr == a) = (l.find? fun p => p.addr == a).map g := by
  rw [List.find?_map]
  congr 2
  funext p
  simp [hg]

/-- The entry of an address after a frame was heard. -/
theorem findPeer_heard (f : Frame) (s : State) (a : Nat) :
    findPeer (heard f s) a = (findPeer s a).map fun p =>
      if p.addr = f.src then { p with lastHeard := s.now, liveness := .active } else p :=
  find?_map_of_addr _ (fun p => by split <;> rfl) a s.peers

/-! ### Attempts -/

/-- The attempt in progress. -/
theorem attemptOf_of_attempting {c : Current} {t : Nat} {s : State} (h : Attempting c t s) :
    attemptOf s = some (c, t) := by
  simp [attemptOf, h.2.1, h.2.2]

/-- An attempt's transmission ends after its start. -/
theorem txEnd_pos (c : Current) (t : Nat) : 0 < c.txEnd t := by
  simp [Current.txEnd, frameTime]

/-- A failed attempt backs off while attempts remain and no ALERT waits. -/
theorem attemptFails_backoff {c : Current} {t : Nat} {s : State} (h : attemptOf s = some (c, t))
    (hf : c.failures + 1 < 8) (hu : s.link.urgent = []) :
    attemptFails s = { s with link := { s.link with
      current := some { c with failures := c.failures + 1, phase := .backoff } } } := by
  simp [attemptFails, h, maxAttempts, hf, preempt, hu]

/-- All that the failing of an attempt does (R131, R133). -/
theorem attemptFails_eq {c : Current} {t : Nat} {s : State} (h : attemptOf s = some (c, t)) :
    attemptFails s = failing c s := by
  by_cases hf : c.failures + 1 < 8
  · simp [attemptFails, h, maxAttempts, failing, hf, preempt]
  · simp only [attemptFails, h, maxAttempts, failing, hf, ↓reduceIte, reportGivenUp, OutFrame.isDirected, setEvent, bump,
      counterMax]
    by_cases hd : c.frame.dst = 0 <;> simp [hd]

/-! ### Where a reception ends and what the window holds -/

/-- A reception ends no earlier than its bits after the attempt in progress. -/
theorem receptionEnd_of_attempt {c : Current} {t : Nat} {s : State} (r : Reception) (h : attemptOf s = some (c, t))
    (ho : s.link.ackOut = none) : receptionEnd r s = { s with now := max s.now (c.txEnd t + r.time) } := by
  have := txEnd_pos c t
  simp [receptionEnd, driveEnd, ho, h, reach, Nat.ne_of_gt this]

/-- A reception began in the window of the directed attempt in progress exactly where its end lies its bit times after it. -/
theorem inWindow_of_attempt {c : Current} {t : Nat} {s : State} (r : Reception) (h : attemptOf s = some (c, t)) :
    inWindow r s = true ↔
      c.frame.dst ≠ 0 ∧ c.txEnd t ≤ s.now - r.time ∧ s.now - r.time ≤ c.txEnd t + ackWindow := by
  simp [inWindow, h, OutFrame.isDirected, and_assoc]

end Sys2Proof.Machine
end

