-- ==== Sys2Proof/Laws/Draining.lean ====
section
/-! SUPPORT. What closing every ACTIVE taker-side record, recalling every ACTIVE supplier-side record and removing every ask
come to, in the terms of the statements: `withTakesClosed`, `withSuppliesRecalled` and `withoutAsks`. -/

namespace Sys2Proof.Machine

/-! ### A fold that replaces records -/

/-- The state with another table and CONTRACTS_CHANGED set; b says that a change is pending by it. -/
def retabled (b : Bool) (l : List Record) (s : State) : State :=
  { s with
    engine := { s.engine with table := l, changePending := b || s.engine.changePending }
    host := { s.host with flags := s.host.flags ||| Event.contractsChanged.bit } }

theorem retabled_retabled (b : Bool) (l m : List Record) (s : State) :
    retabled b l (retabled b m s) = retabled b l s := by
  simp [retabled, BitVec.or_assoc]

/-- Replacing a record by one that looks different; b says whether its amount or its closing makes a change pending. -/
theorem putRecord_retabled {old new : Record} {s : State} (b : Bool)
    (h : findRecord new.supplier new.id s.engine.table = some old) (hv : old.visible ≠ new.visible)
    (hc : (old.amount ≠ new.amount ∨ new.isClosing = true ∧ old.isClosing = false) ↔ b = true)
    (hs : b = true → s.control.station.speaks = true) :
    putRecord new s
      = retabled b (s.engine.table.map fun r => if r.hasKey new.supplier new.id then new else r) s := by
  unfold putRecord
  rw [h]
  cases b with
  | false =>
    have : ¬ (old.amount ≠ new.amount ∨ new.isClosing = true ∧ old.isClosing = false) := by simpa using hc
    simp [hv, this, noteContracts, setEvent, retabled]
  | true =>
    have : old.amount ≠ new.amount ∨ new.isClosing = true ∧ old.isClosing = false := by simpa using hc
    simp only [hv, ↓reduceIte, this]
    simp [noteChange, noteContracts, setEvent, hs rfl, retabled]

/-- Distinct keys. -/
def Distinct (l : List Record) : Prop := l.Pairwise fun q r => ¬ (q.supplier = r.supplier ∧ q.id = r.id)

/-- With distinct keys a record is found by its own key, and replacing its key replaces it alone. -/
theorem Distinct.find {before after : List Record} {r : Record} (h : Distinct (before ++ r :: after)) :
    findRecord r.supplier r.id (before ++ r :: after) = some r := by
  have hb : ∀ q ∈ before, ¬ (q.supplier = r.supplier ∧ q.id = r.id) := fun q hq =>
    (List.pairwise_append.mp h).2.2 q hq r List.mem_cons_self
  unfold findRecord
  rw [List.find?_append]
  have : before.find? (Record.hasKey r.supplier r.id) = none := by
    rw [List.find?_eq_none]
    intro q hq
    simpa [Record.hasKey] using hb q hq
  simp [this, Record.hasKey]

theorem Distinct.map_key {before after : List Record} {r n : Record} (h : Distinct (before ++ r :: after)) :
    (before ++ r :: after).map (fun q => if q.hasKey r.supplier r.id then n else q) = before ++ n :: after := by
  have hb : ∀ q ∈ before, q.hasKey r.supplier r.id = false := by
    intro q hq
    have := (List.pairwise_append.mp h).2.2 q hq r List.mem_cons_self
    simpa [Record.hasKey] using this
  have ha : ∀ q ∈ after, q.hasKey r.supplier r.id = false := by
    intro q hq
    have := (List.pairwise_cons.mp (List.pairwise_append.mp h).2.1).1 q hq
    simp only [Record.hasKey]
    rw [Bool.and_eq_false_iff]
    by_contra hc
    simp only [not_or, Bool.not_eq_false, beq_iff_eq] at hc
    exact this ⟨hc.1.symm, hc.2.symm⟩
  have map_id : ∀ l : List Record, (∀ q ∈ l, q.hasKey r.supplier r.id = false) →
      l.map (fun q => if q.hasKey r.supplier r.id then n else q) = l := by
    intro l hl
    exact (List.map_congr_left fun q hq => by simp [hl q hq]).trans (List.map_id _)
  rw [List.map_append, List.map_cons, map_id before hb, map_id after ha]
  simp [Record.hasKey]

theorem Distinct.replace {before after : List Record} {r n : Record} (h : Distinct (before ++ r :: after))
    (hn : n.supplier = r.supplier ∧ n.id = r.id) : Distinct (before ++ n :: after) := by
  unfold Distinct at *
  rw [List.pairwise_append, List.pairwise_cons] at *
  obtain ⟨h1, ⟨h2, h3⟩, h4⟩ := h
  refine ⟨h1, ⟨fun q hq => ?_, h3⟩, fun q hq x hx => ?_⟩
  · rw [hn.1, hn.2]; exact h2 q hq
  · rcases List.mem_cons.mp hx with rfl | hx
    · rw [hn.1, hn.2]; exact h4 q hq r List.mem_cons_self
    · exact h4 q hq x (List.mem_cons_of_mem _ hx)

/-- A fold that replaces each record meeting a test by an updated one with its key, told as one update of the table. -/
theorem foldl_retabled (p : Record → Bool) (upd : Record → Record) (b : Bool) (g : State → Record → State)
    (c : Control) (n : Nat) (hk : ∀ r, (upd r).supplier = r.supplier ∧ (upd r).id = r.id)
    (hg : ∀ t r, t.control = c → t.now = n → p r = true → g t r = putRecord (upd r) t)
    (hv : ∀ r, p r = true → r.visible ≠ (upd r).visible)
    (hc : ∀ r, p r = true → ((r.amount ≠ (upd r).amount ∨ (upd r).isClosing = true ∧ r.isClosing = false) ↔ b = true))
    (hs : b = true → c.station.speaks = true) (todo : List Record) :
    ∀ (done : List Record) (s : State), s.control = c → s.now = n → s.engine.table = done ++ todo →
      Distinct (done ++ todo) →
      (todo.filter p).foldl g s
        = if todo.any p then retabled b (done ++ todo.map fun r => if p r = true then upd r else r) s else s := by
  induction todo with
  | nil => intro done s _ _ _ _; simp
  | cons r todo ih =>
    intro done s hsc hsn ht hd
    by_cases hp : p r = true
    · have e : g s r = retabled b (done ++ upd r :: todo) s := by
        have hf := hd.find
        rw [← ht, ← (hk r).1, ← (hk r).2] at hf
        rw [hg s r hsc hsn hp, putRecord_retabled b hf (hv r hp) (hc r hp) (fun hb => hsc ▸ hs hb), ht, (hk r).1, (hk r).2,
          hd.map_key]
      have hd' : Distinct ((done ++ [upd r]) ++ todo) := by
        simpa using hd.replace (hk r)
      rw [List.filter_cons_of_pos hp, List.foldl_cons, e,
        ih (done ++ [upd r]) (retabled b (done ++ upd r :: todo) s) hsc hsn (by simp [retabled]) hd']
      simp only [List.any_cons, hp, Bool.true_or, ↓reduceIte, List.map_cons]
      split
      · rw [retabled_retabled]; simp
      · rename_i hn
        have : todo.map (fun r => if p r = true then upd r else r) = todo := by
          refine (List.map_congr_left fun q hq => ?_).trans (List.map_id _)
          have : p q = false := by
            simp only [List.any_eq_true, not_exists, not_and, Bool.not_eq_true] at hn
            exact hn q hq
          simp [this]
        rw [this]
    · have hp' : p r = false := by simpa using hp
      rw [List.filter_cons_of_neg hp, ih (done ++ [r]) s hsc hsn (by simpa using ht) (by simpa using hd)]
      simp [hp']

/-! ### Recalling every ACTIVE supplier-side record -/

theorem recallAll_eq {s : State} (hd : Distinct s.engine.table) : recallAll s = withSuppliesRecalled s := by
  have h := foldl_retabled (fun r => r.isSupply && r.isActive)
    (fun r => { r with
      state := .recalling 0 (r.revision + 1) (s.now + ms (cfg s).recallTimeout), owed := some .recall })
    false (fun t r => startRecall 0 r t) s.control s.now (fun _ => ⟨rfl, rfl⟩)
    (fun t r hc hn _ => by simp [startRecall, hn, cfg, hc])
    (fun r hp => by
      have : r.state = .active := by simp_all [Record.isActive]
      simp [Record.visible, this, RecordState.code])
    (fun r hp => by simp [Record.isClosing]) nofun s.engine.table [] s rfl rfl rfl hd
  unfold recallAll
  rw [h]
  simp only [withSuppliesRecalled, withRecords, Record.isSupply, Record.isActive, ms, Bool.decide_and, List.nil_append]
  split <;> simp_all [retabled]

/-! ### Removing every ask -/

/-- Asks to distinct suppliers (R40). -/
def DistinctAsks (l : List Ask) : Prop := l.Pairwise fun a b => a.supplier ≠ b.supplier

theorem DistinctAsks.unique {l : List Ask} (h : DistinctAsks l) {a b : Ask} (ha : a ∈ l) (hb : b ∈ l)
    (he : a.supplier = b.supplier) : a = b := by
  induction l with
  | nil => cases ha
  | cons c l ih =>
    obtain ⟨h1, h2⟩ := List.pairwise_cons.mp h
    rcases List.mem_cons.mp ha with ha | ha <;> rcases List.mem_cons.mp hb with hb | hb
    · exact ha.trans hb.symm
    · exact absurd (ha ▸ he) (h1 b hb)
    · exact absurd (hb ▸ he.symm) (h1 a ha)
    · exact ih h2 ha hb

theorem withoutAsks_of_nil {s : State} (h : s.engine.asks = []) : withoutAsks s = s := by
  obtain ⟨c, e, p, l, q, h', n, w⟩ := s
  obtain ⟨t, a, r1, r2, r3, r4, r5, r6, r7, r8, r9, r10, r11, r12⟩ := e
  cases l
  subst h
  simp [withoutAsks]

/-- Withdrawing one ask first leaves the same. -/
theorem withoutAsks_withoutAsk {x : Ask} {s : State} (hd : DistinctAsks s.engine.asks) (hx : x ∈ s.engine.asks) :
    withoutAsks (withoutAsk x s) = withoutAsks s := by
  have hmem : ∀ b ∈ s.engine.asks, b.supplier = x.supplier → b = x := fun b hb he => hd.unique hb hx he
  have key : ∀ f : OutFrame,
      (((s.engine.asks.filter fun b => b.supplier ≠ x.supplier).all fun a => decide (a.state ≠ .queued f.ref))
        && decide (x.state ≠ .queued f.ref)) = s.engine.asks.all fun a => decide (a.state ≠ .queued f.ref) := by
    intro f
    rw [Bool.eq_iff_iff]
    simp only [Bool.and_eq_true, List.all_eq_true, List.mem_filter, decide_eq_true_eq]
    constructor
    · rintro ⟨h1, h2⟩ a ha
      by_cases he : a.supplier = x.supplier
      · rw [hmem a ha he]; exact h2
      · exact h1 a ⟨ha, by simpa using he⟩
    · exact fun h => ⟨fun a ha => h a ha.1, h x hx⟩
  have hn : (withoutAsks (withoutAsk x s)).link.normal = (withoutAsks s).link.normal := by
    have e : ∀ f : OutFrame, decide (x.state ≠ .queued f.ref)
        = (match x.state with | .queued ref => decide (f.ref ≠ ref) | _ => true) := by
      intro f
      cases x.state <;> simp [eq_comm]
    simp only [withoutAsks, withoutAsk]
    rw [← List.filter_congr fun f _ => key f]
    cases hx' : x.state <;> simp [List.filter_filter, eq_comm]
  have : withoutAsks (withoutAsk x s)
      = { withoutAsks s with link := { (withoutAsks s).link with
          normal := (withoutAsks (withoutAsk x s)).link.normal } } := by
    simp [withoutAsks, withoutAsk]
  rw [this, hn]

theorem withoutAsks_removeAsk (a : Nat) {s : State} (hd : DistinctAsks s.engine.asks) :
    withoutAsks (removeAsk a s) = withoutAsks s := by
  cases h : findAsk s a with
  | none => simp [removeAsk, h]
  | some x => rw [removeAsk_of_found h, withoutAsks_withoutAsk hd (List.mem_of_find?_eq_some h)]

theorem distinctAsks_removeAsk (a : Nat) {s : State} (hd : DistinctAsks s.engine.asks) :
    DistinctAsks (removeAsk a s).engine.asks := by
  rw [removeAsk_asks]
  exact hd.filter _

/-- Removing every ask, told as one update. -/
theorem removeAllAsks_eq {s : State} (hd : DistinctAsks s.engine.asks) : removeAllAsks s = withoutAsks s := by
  have fold : ∀ (l : List Nat) (t : State), DistinctAsks t.engine.asks →
      withoutAsks (l.foldl (fun t a => removeAsk a t) t) = withoutAsks t := by
    intro l
    induction l with
    | nil => intro t _; rfl
    | cons a l ih =>
      intro t ht
      rw [List.foldl_cons, ih _ (distinctAsks_removeAsk a ht), withoutAsks_removeAsk a ht]
  rw [← fold (s.engine.asks.map Ask.supplier) s hd]
  exact (withoutAsks_of_nil (removeAllAsks_asks s)).symm

/-! ### Closing every ACTIVE taker-side record -/

theorem putRecord_asks (n : Record) (s : State) : (putRecord n s).engine.asks = s.engine.asks := by
  unfold putRecord
  split
  · rfl
  · dsimp only; split <;> split <;> simp

theorem withoutAsks_noteChange (s : State) : withoutAsks (noteChange s) = noteChange (withoutAsks s) := by
  have e : (withoutAsks s).control = s.control := rfl
  unfold noteChange
  rw [e]
  split <;> rfl

theorem withoutAsks_putRecord (n : Record) (s : State) : withoutAsks (putRecord n s) = putRecord n (withoutAsks s) := by
  have e : (withoutAsks s).engine.table = s.engine.table := rfl
  unfold putRecord
  rw [e]
  cases findRecord n.supplier n.id s.engine.table with
  | none => rfl
  | some old =>
    dsimp only
    split <;> split <;> first | rw [withoutAsks_noteChange]; rfl | rfl

theorem withoutAsks_closeTake (k : Notice) (r : Record) {s : State} (hd : DistinctAsks s.engine.asks) :
    withoutAsks (closeTake k r s) = putRecord { r with state := .closing, owed := some k } (withoutAsks s) := by
  rw [← withoutAsks_putRecord]
  have hd' : DistinctAsks (putRecord { r with state := .closing, owed := some k } s).engine.asks := by
    rwa [putRecord_asks]
  unfold closeTake removeRaise
  split
  · rw [withoutAsks_removeAsk _ hd']
  · rfl

theorem distinctAsks_closeTake (k : Notice) (r : Record) {s : State} (hd : DistinctAsks s.engine.asks) :
    DistinctAsks (closeTake k r s).engine.asks := by
  have hd' : DistinctAsks (putRecord { r with state := .closing, owed := some k } s).engine.asks := by
    rwa [putRecord_asks]
  unfold closeTake removeRaise
  split
  · exact distinctAsks_removeAsk _ hd'
  · exact hd'

theorem foldl_closeTake (rs : List Record) : ∀ s : State, DistinctAsks s.engine.asks →
    withoutAsks (rs.foldl (fun t r => closeTake .release r t) s)
        = rs.foldl (fun t r => putRecord { r with state := .closing, owed := some .release } t) (withoutAsks s)
      ∧ DistinctAsks (rs.foldl (fun t r => closeTake .release r t) s).engine.asks := by
  induction rs with
  | nil => exact fun s hd => ⟨rfl, hd⟩
  | cons r rs ih =>
    intro s hd
    rw [List.foldl_cons, List.foldl_cons, ← withoutAsks_closeTake .release r hd]
    exact ih _ (distinctAsks_closeTake .release r hd)

/-- Closing every ACTIVE taker-side record, told as one update, but for the asks. -/
theorem withoutAsks_closeAllTake {s : State} (hd : Distinct s.engine.table) (ha : DistinctAsks s.engine.asks)
    (hs : s.control.station.speaks = true) :
    withoutAsks (closeAllTake s) = withTakesClosed (withoutAsks s)
      ∧ DistinctAsks (closeAllTake s).engine.asks := by
  have h := foldl_retabled (fun r => r.isTake && r.isActive)
    (fun r => { r with state := .closing, owed := some .release })
    true (fun t r => putRecord { r with state := .closing, owed := some .release } t) s.control s.now
    (fun _ => ⟨rfl, rfl⟩) (fun t r _ _ _ => rfl)
    (fun r hp => by
      have : r.state = .active := by simp_all [Record.isActive]
      simp [Record.visible, this, RecordState.code])
    (fun r hp => by
      have : r.state = .active := by simp_all [Record.isActive]
      simp [Record.isClosing, this])
    (fun _ => hs) s.engine.table [] (withoutAsks s) rfl rfl rfl hd
  obtain ⟨f1, f2⟩ := foldl_closeTake (s.engine.table.filter fun r => r.isTake && r.isActive) s ha
  refine ⟨?_, f2⟩
  have e : (withoutAsks s).engine.table = s.engine.table := rfl
  unfold closeAllTake
  rw [f1, h]
  simp only [withTakesClosed, withRecords, Record.isTake, Record.isActive, Bool.decide_and, List.nil_append, e]
  split <;> simp_all [retabled]

/-- Closing every ACTIVE taker-side record where no ask is pending (R84). -/
theorem closeAllTake_eq {s : State} (hd : Distinct s.engine.table) (ha : s.engine.asks = [])
    (hs : s.control.station.speaks = true) : closeAllTake s = withTakesClosed s := by
  have h := (withoutAsks_closeAllTake hd (by rw [ha]; exact List.Pairwise.nil) hs).1
  rwa [withoutAsks_of_nil (closeAllTake_asks_nil ha), withoutAsks_of_nil ha] at h

theorem withoutAsks_withTakesClosed (s : State) : withoutAsks (withTakesClosed s) = withTakesClosed (withoutAsks s) := by
  have e : (withoutAsks s).engine.table = s.engine.table := rfl
  unfold withTakesClosed withRecords
  rw [e]
  split <;> rfl

/-- The shed of an ALERT and of a trip: records closed, then every ask removed (R116, R122). -/
theorem removeAllAsks_closeAllTake {s : State} (hd : Distinct s.engine.table) (ha : DistinctAsks s.engine.asks)
    (hs : s.control.station.speaks = true) : removeAllAsks (closeAllTake s) = withoutAsks (withTakesClosed s) := by
  obtain ⟨h1, h2⟩ := withoutAsks_closeAllTake hd ha hs
  rw [removeAllAsks_eq h2, h1, withoutAsks_withTakesClosed]

/-- The drain of a taker: every ask removed, then records closed (R84). -/
theorem closeAllTake_removeAllAsks {s : State} (hd : Distinct s.engine.table) (ha : DistinctAsks s.engine.asks)
    (hs : s.control.station.speaks = true) : closeAllTake (removeAllAsks s) = withTakesClosed (withoutAsks s) := by
  rw [removeAllAsks_eq ha]
  exact closeAllTake_eq hd rfl hs

/-- The premises of these lemmas, in tables that are in order. -/
theorem TablesOrdered.distinct {s : State} (h : TablesOrdered s) :
    Distinct s.engine.table ∧ DistinctAsks s.engine.asks := ⟨h.2.2.1, h.2.2.2.2.2.2.1⟩

end Sys2Proof.Machine
end

