-- ==== Sys2Proof/Laws/LifeCycle.lean ====
section
/-! SUPPORT. What losing a peer and the entries to OFFLINE and DUPLICATE leave. -/

namespace Sys2Proof.Machine

/-! ### What losing a peer changes -/

/-- Dropping records changes the table, the pending change and CONTRACTS_CHANGED. -/
theorem dropRecords_eq (p : Record → Bool) (s : State) :
    ∃ c f, dropRecords p s = { s with
      engine := { s.engine with table := s.engine.table.filter fun r => !p r, changePending := c }
      host := { s.host with flags := s.host.flags ||| f } } := by
  unfold dropRecords
  split
  · unfold noteChange
    split
    · exact ⟨true, Event.contractsChanged.bit, rfl⟩
    · exact ⟨s.engine.changePending, Event.contractsChanged.bit, rfl⟩
  · rename_i h
    refine ⟨s.engine.changePending, 0, ?_⟩
    have : s.engine.table.filter (fun r => !p r) = s.engine.table := by
      rw [List.filter_eq_self]
      intro r hr
      simp only [List.any_eq_true, not_exists, not_and] at h
      simpa using h r hr
    simp [this]

/-- Removing an ask changes the asks, and the normal queue by frames taken out of it. -/
theorem removeAsk_eq (a : Nat) (s : State) :
    ∃ p : OutFrame → Bool, removeAsk a s = { s with
      engine := { s.engine with asks := s.engine.asks.filter fun b => b.supplier != a }
      link := { s.link with normal := s.link.normal.filter p } } := by
  have hall : s.link.normal.filter (fun _ => true) = s.link.normal := by simp
  unfold removeAsk
  split
  · rename_i h
    refine ⟨fun _ => true, ?_⟩
    have : s.engine.asks.filter (fun b => b.supplier != a) = s.engine.asks := by
      rw [List.filter_eq_self]
      intro b hb
      simpa using List.find?_eq_none.mp h b hb
    rw [this, hall]
  · rename_i x h
    unfold releaseFrame
    split
    · exact ⟨_, rfl⟩
    · exact ⟨fun _ => true, by rw [hall]⟩

/-- All that losing a peer can do. -/
theorem losePeer_eq (a : Nat) (s : State) :
    ∃ c f q, losePeer a s = { s with
      engine := { s.engine with
        table := if knownPeer s a then s.engine.table.filter fun r => r.counterpart != a else s.engine.table
        asks := if knownPeer s a then s.engine.asks.filter fun b => b.supplier != a else s.engine.asks
        changePending := c }
      peers := s.peers.filter fun p => p.addr != a
      link := { s.link with normal := s.link.normal.filter q }
      host := { s.host with flags := s.host.flags ||| f } } := by
  unfold losePeer
  split
  · obtain ⟨c, f, h⟩ := dropRecords_eq (fun r => r.counterpart == a)
      { s with peers := s.peers.filter fun p => p.addr != a }
    obtain ⟨q, h'⟩ := removeAsk_eq a (dropRecords (fun r => r.counterpart == a)
      { s with peers := s.peers.filter fun p => p.addr != a })
    refine ⟨c, f ||| Event.peerLost.bit, q, ?_⟩
    rw [h', h]
    simp [setEvent, bne, BitVec.or_assoc]
  · rename_i h
    refine ⟨s.engine.changePending, 0, fun _ => true, ?_⟩
    have : s.peers.filter (fun p => p.addr != a) = s.peers := by
      rw [List.filter_eq_self]
      intro p hp
      simp only [knownPeer, List.any_eq_true, not_exists, not_and] at h
      simpa using h p hp
    simp [this]

/-- What losing a run of peers leaves. -/
theorem foldl_losePeer_eq (l : List Nat) (s : State) :
    ∃ t k c f q, l.foldl (fun x a => losePeer a x) s = { s with
      engine := { s.engine with table := t, asks := k, changePending := c }
      peers := s.peers.filter fun p => !l.contains p.addr
      link := { s.link with normal := s.link.normal.filter q }
      host := { s.host with flags := s.host.flags ||| f } } := by
  induction l generalizing s with
  | nil => exact ⟨s.engine.table, s.engine.asks, s.engine.changePending, 0, fun _ => true, by simp⟩
  | cons a l ih =>
    obtain ⟨c, f, q, h⟩ := losePeer_eq a s
    obtain ⟨t', k', c', f', q', h'⟩ := ih (losePeer a s)
    refine ⟨t', k', c', f ||| f', fun x => q' x && q x, ?_⟩
    rw [List.foldl_cons, h', h]
    simp [List.filter_filter, BitVec.or_assoc, bne, beq_eq_decide, Bool.and_comm]

/-! ### Entry to OFFLINE -/

/-- What entry to OFFLINE leaves, before a LEAVE in progress completes: no entry, an empty link, the builder and the rail
watch as they begin. -/
theorem enterOffline_eq (s : State) :
    ∃ t k f, enterOffline s =
      let u : State := { s with
        control := { s.control with station := .offline, listenEnd := none }
        engine := { s.engine with
          table := t, asks := k, declareDue := false, finalDue := false, changePending := false, lastInstant := none }
        peers := []
        link := { Link.initial with counters := s.link.counters }
        path := { s.path with
          state := if s.path.state = .tripped then .opened else s.path.state, railTimer := none, armed := true }
        host := { s.host with flags := s.host.flags ||| f } }
      match s.host.long with
      | some ⟨.leave, _⟩ => completeLong .done u
      | _ => u := by
  unfold enterOffline
  dsimp only
  generalize hv : clearBuilder (stopRailWatch (clearLink { s with
    control.station := .offline
    control.listenEnd := none
    path.state := if s.path.state = .tripped then .opened else s.path.state })) = v
  have hc : v.engine.changePending = false := by subst hv; rfl
  have hst : v.control.station.speaks = false := by subst hv; rfl
  -- outside JOINED and LEAVING no change is made pending
  have hkeep : ∀ (l : List Nat) (x : State), x.control.station.speaks = false →
      (l.foldl (fun y a => losePeer a y) x).engine.changePending = x.engine.changePending := by
    intro l
    induction l with
    | nil => intro _ _; rfl
    | cons a l ih =>
      intro x hx
      have h1 : (losePeer a x).engine.changePending = x.engine.changePending := by
        unfold losePeer dropRecords
        split
        · obtain ⟨q, h⟩ := removeAsk_eq a (if ({ x with peers := x.peers.filter fun p => p.addr != a } : State).engine.table.any
              (fun r => r.counterpart == a) = true then noteChange (noteContracts { x with
                peers := x.peers.filter fun p => p.addr != a
                engine.table := x.engine.table.filter fun r => !(r.counterpart == a) })
            else { x with peers := x.peers.filter fun p => p.addr != a })
          rw [setEvent_engine, h]
          dsimp only
          split
          · simp [noteChange, noteContracts, setEvent, hx]
          · rfl
        · rfl
      have h2 : (losePeer a x).control.station.speaks = false := by
        obtain ⟨_, _, _, h⟩ := losePeer_eq a x
        rw [h]; exact hx
      rw [List.foldl_cons, ih _ h2, h1]
  have hcp := hkeep (v.peers.map Peer.addr) v hst
  obtain ⟨t, k, c, f, q, h⟩ := foldl_losePeer_eq (v.peers.map Peer.addr) v
  have hp : v.peers.filter (fun p => !(v.peers.map Peer.addr).contains p.addr) = [] := by
    rw [List.filter_eq_nil_iff]
    intro p hp
    simpa using ⟨p, hp, rfl⟩
  rw [h] at hcp
  have hcc : c = false := by rw [hc] at hcp; exact hcp
  refine ⟨t, k, f, ?_⟩
  rw [h, hp, hcc]
  subst hv
  simp only [clearBuilder, stopRailWatch, clearLink, Link.initial, List.filter_nil]
  all_goals rcases s.host.long with _ | ⟨_ | _ | _, _⟩ <;> rfl

end Sys2Proof.Machine
end

