-- ==== Sys2Proof/Laws/Settle.lean ====
section
/-! SUPPORT. What the end of a happening leaves alone, field by field, read off `outside_settle`; and the searches that the
passing of time does not change. -/

namespace Sys2Proof.Machine

/-! ### The end of a happening -/

section

variable (b : Bool) (p m : State)

@[simp] theorem settle_control : (settle b p m).control = m.control :=
  congrArg (fun s => s.control) (outside_settle b p m)
@[simp] theorem settle_peers : (settle b p m).peers = m.peers :=
  congrArg (fun s => s.peers) (outside_settle b p m)
@[simp] theorem settle_now : (settle b p m).now = m.now :=
  congrArg (fun s => s.now) (outside_settle b p m)
@[simp] theorem settle_pending : (settle b p m).pending = m.pending :=
  congrArg (fun s => s.pending) (outside_settle b p m)
@[simp] theorem settle_urgent : (settle b p m).link.urgent = m.link.urgent :=
  congrArg (fun s => s.link.urgent) (outside_settle b p m)
@[simp] theorem settle_current : (settle b p m).link.current = m.link.current :=
  congrArg (fun s => s.link.current) (outside_settle b p m)
@[simp] theorem settle_preempted : (settle b p m).link.preempted = m.link.preempted :=
  congrArg (fun s => s.link.preempted) (outside_settle b p m)
@[simp] theorem settle_inbound : (settle b p m).link.inbound = m.link.inbound :=
  congrArg (fun s => s.link.inbound) (outside_settle b p m)
@[simp] theorem settle_ackDue : (settle b p m).link.ackDue = m.link.ackDue :=
  congrArg (fun s => s.link.ackDue) (outside_settle b p m)
@[simp] theorem settle_ackOut : (settle b p m).link.ackOut = m.link.ackOut :=
  congrArg (fun s => s.link.ackOut) (outside_settle b p m)
@[simp] theorem settle_counters : (settle b p m).link.counters = m.link.counters :=
  congrArg (fun s => s.link.counters) (outside_settle b p m)
@[simp] theorem settle_requests : (settle b p m).host.requests = m.host.requests :=
  congrArg (fun s => s.host.requests) (outside_settle b p m)
@[simp] theorem settle_mask : (settle b p m).host.mask = m.host.mask :=
  congrArg (fun s => s.host.mask) (outside_settle b p m)
@[simp] theorem settle_suspendEnd : (settle b p m).engine.suspendEnd = m.engine.suspendEnd :=
  congrArg (fun s => s.engine.suspendEnd) (outside_settle b p m)
@[simp] theorem settle_nextContract : (settle b p m).engine.nextContract = m.engine.nextContract :=
  congrArg (fun s => s.engine.nextContract) (outside_settle b p m)

end

/-- In LOADING only the outputs follow. -/
theorem settle_of_loading {b : Bool} {p m : State} (h : m.control.station = .loading) : settle b p m = drive m := by
  simp [settle, h]

/-- Outside JOINED and LEAVING the engine and the builder rest. -/
theorem engineSettle_of_silent {p m : State} (h : m.control.station.speaks = false) : engineSettle p m = m := by
  simp [engineSettle, h]

/-! ### Searches and tests over time -/

section

variable (n : Nat) (s : State)

@[simp] theorem supplyTestFails_advance : supplyTestFails (advance n s) = supplyTestFails s := by simp [supplyTestFails]
@[simp] theorem startRole_advance : startRole (advance n s) = startRole s := by simp [startRole]
@[simp] theorem free_advance : free (advance n s) = free s := by simp [free, effectiveCapacity, committed]
@[simp] theorem concernedRecord_advance (a i : Nat) : concernedRecord a i (advance n s) = concernedRecord a i s := by
  simp [concernedRecord]
@[simp] theorem namedSupply_advance (a i : Nat) : namedSupply a i (advance n s) = namedSupply a i s := by
  simp [namedSupply]
@[simp] theorem matchingAsk_advance (a i : Nat) : matchingAsk (advance n s) a i = matchingAsk s a i := by
  simp [matchingAsk]
@[simp] theorem findTake_advance (a i : Nat) : findTake (advance n s) a i = findTake s a i := by simp [findTake]
@[simp] theorem raiseNames_advance (r : Record) : raiseNames (advance n s) r = raiseNames s r := by simp [raiseNames]
@[simp] theorem askOfFrame_advance (i : Nat) : askOfFrame (advance n s) i = askOfFrame s i := by simp [askOfFrame]
@[simp] theorem idInUse_advance (i : Nat) : idInUse (advance n s) i = idInUse s i := by simp [idInUse]
@[simp] theorem allocateId_advance (k i : Nat) : allocateId (advance n s) k i = allocateId s k i := by
  induction k generalizing i with
  | zero => rfl
  | succ k ih => simp [allocateId, ih]

end

/-! ### Decisions and notices, in the terms of the statements -/

/-- The frame of the notice a record owes has the content R13 gives it. -/
theorem noticeFrame_owed {r : Record} {k : Notice} (h : r.owed = some k) : noticeFrame r k = noticeOf r := by
  unfold noticeFrame noticeOf
  rw [h]
  cases k <;> cases hs : r.state <;> simp [Record.isClosing, hs]

/-- A recall begins by the record of R71. -/
theorem startRecall_eq (target : Nat) (r : Record) (s : State) :
    startRecall target r s = putRecord (recallTo s target r) s := rfl

/-- A recall planned against a positive excess has the target of R71, and the plan goes on with the rest of the excess. -/
theorem recallPlan_cons {minGrant x : Nat} (hx : x ≠ 0) (r : Record) (rest : List Record) :
    recallPlan minGrant x (r :: rest)
      = (r, recallTarget minGrant r.amount x)
        :: recallPlan minGrant (x - (r.amount - recallTarget minGrant r.amount x)) rest := by
  simp [recallPlan, recallTarget, hx]

/-- No notice placed leaves the table as it stands. -/
@[simp] theorem placedTable_zero (rs : List Record) : placedTable 0 rs = rs := by cases rs <;> rfl

/-! ### Asks -/

/-- After its removal no ask to the supplier pends. -/
theorem findAsk_removeAsk (a : Nat) (s : State) : findAsk (removeAsk a s) a = none := by
  unfold removeAsk
  split
  · assumption
  · simp only [findAsk, releaseFrame]
    split <;> simp [withdraw]

/-- After its failure neither. -/
theorem findAsk_failAsk (a : Nat) (s : State) : findAsk (failAsk a s) a = none := by
  simpa [failAsk, setSkip, updatePeer, findAsk] using findAsk_removeAsk a s

end Sys2Proof.Machine
end

