-- ==== Sys2Proof/Tests/Slice0.lean ====
section
/-! SUPPORT. Tests. Expected results come from the rules and the worked sequences of the spec, named at each test; the
CRC bytes written out were computed outside the model, by the algorithm R171 names. The second half holds, for every
statement with hypotheses, states and operands that meet them. -/

set_option maxRecDepth 20000

namespace Sys2Proof.Tests

open Sys2Proof.Machine

/-! ### The operand ranges refuse what lies outside them -/

theorem test_wf_refuses_address_31 : (Instr.peerSilent 0 31).wellFormed = false := by decide
theorem test_wf_refuses_address_0 : (Instr.askTimeout 0 0).wellFormed = false := by decide
theorem test_wf_refuses_contract_0 : (Instr.recallDeadline 0 0).wellFormed = false := by decide
theorem test_wf_refuses_contract_256 : (Instr.recallDeadline 0 256).wellFormed = false := by decide
theorem test_wf_refuses_rail_6001 : (Instr.brownout 0 6001).wellFormed = false := by decide
theorem test_wf_refuses_current_2048 : (Instr.pathCurrentChange 0 2048).wellFormed = false := by decide
theorem test_wf_refuses_draw_16 : (Instr.quietGapEnd 0 16).wellFormed = false := by decide
theorem test_wf_refuses_short_image : (Instr.loadComplete 0 (some [0xE7, 0x3A]) true).wellFormed = false := by decide
theorem test_wf_refuses_eight_bits_over : (Instr.fragment 0 ⟨[0xB4], 8, .idle⟩).wellFormed = false := by decide
theorem test_wf_accepts_bounds :
    (Instr.holdEnd 0 30).wellFormed = true ∧ (Instr.recallDeadline 0 255).wellFormed = true
      ∧ (Instr.railLow 0 6000).wellFormed = true ∧ (Instr.retryGapEnd 0 15).wellFormed = true
      ∧ (Instr.fragment 0 ⟨[0xB4], 7, .idle⟩).wellFormed = true := by decide

/-- No row of the table has bits. -/
theorem test_no_word_spells_a_command : decodeTableWord 8 0 = none := by decide

/-! ### States that the tests share -/

/-- Station 5: start role TAKER, capacity 300, demand 80, sheddable with alert threshold 4600, and the defaults of
R147. -/
def conf : StationConfig where
  address := 5
  startRole := .taker
  capacity := 300
  demand := 80
  minGrant := 4
  period := 50
  askTimeout := 200
  holdTime := 50
  recallTimeout := 100
  overdrawGrace := 10
  shedGrace := 100
  overdrawMargin := 2
  rampTime := 5
  startAllowance := 2
  sheddable := true
  alertThreshold := 4600
  alertHoldoff := 1000

/-- The image of station 5, by the image layout of 11.2, with use-default codes. -/
def image : List Byte :=
  [0xE7, 0x3A, 0x01, 0x05, 0x01, 0x01, 0x2C, 0x00, 0x50, 0xFF, 0xFF, 0xFF, 0xFF, 0xFF, 0xFF, 0xFF, 0xFF, 0xFF, 0xFF, 0xFF,
    0xFF, 0xFF, 0xFF, 0x01, 0x11, 0xF8, 0xFF, 0xFF, 0x41, 0x00]

/-- Station 5 loaded and in a station state, with its supply and a last declaration instant at 0. -/
def base (station : Station) : State :=
  { State.reset with
    control := { State.reset.control with station := station, config := some conf, loadStart := none }
    engine := { Engine.initial with demand := 80, capacity := 300, supply := true, lastInstant := some 0 }
    link := { Link.initial with idleSince := some 2000 }
    now := 2000 }

/-- A supplier that declares a spare. -/
def peer (addr spare : Nat) : Peer := ⟨addr, 140, .supplier, false, false, 50, 300, spare, 0, .active, 1000, 0, none, false⟩

/-- Station 5 in JOINED in a role, with the records given and the peers 2 and 7, which declare no spare. -/
def joined (role : Role) (table : List Record) : State :=
  { base .joined with
    engine := { (base .joined).engine with role := role, table := table }
    peers := [peer 2 0, peer 7 0] }

/-- A taker-side record. -/
def take (supplier id amount : Nat) (v : Revision) : Record := ⟨supplier, id, .take, supplier, amount, v, .active, none, 0⟩

/-- A supplier-side record of station 5. -/
def supply (id taker amount : Nat) (v : Revision) : Record := ⟨5, id, .supply, taker, amount, v, .active, none, 0⟩

/-- A request with tag 0x21. -/
def request (kind a b : Byte) : Request := ⟨kind, 0x21, a, b, 0, 0⟩

/-- The request at the head of the Request Queue. -/
def asking (q : Request) (s : State) : State := { s with host := { s.host with requests := [q] } }

/-- A frame from station 2 to station 5. -/
def frame (p : Payload) : Frame := ⟨if p.isBroadcast then 0 else 5, 2, 3, p⟩

/-- A frame at the head of the inbound queue. -/
def inbound (p : Payload) (s : State) : State := { s with link := { s.link with inbound := [frame p] } }

/-- A frame received whole, with an idle line after it. -/
def whole (p : Payload) : Reception := ⟨(frame p).bytes, 0, .idle⟩

/-- Station 2's DECLARE of 12.1: SUPPLIER, incarnation 140, period 500 ms, capacity 300, spare 300. -/
def declared : Declare := ⟨2, false, false, false, 140, 50, 300, 300, 0, []⟩

/-- An ask of station 2 for a new contract. -/
def pendingAsk (state : AskState) : Ask := ⟨2, 1, none, 80, 4, state, 0⟩

/-- Station 5 as TAKER with that ask. -/
def askingTwo (state : AskState) : State :=
  { joined .taker [] with engine := { (joined .taker []).engine with asks := [pendingAsk state] } }

/-- An attempt that began at 1900. -/
def attempt (f : OutFrame) (p : Payload) : Current := ⟨f, 1, 1, 0, .attempting 1900, p⟩

/-- The link with a current frame. -/
def sending (c : Current) (s : State) : State := { s with link := { s.link with current := some c } }

/-- A directed frame to station 2. -/
def directed (p : Payload) : OutFrame := ⟨2, .fixed p, 0⟩

/-- The outcome is a next state of which p holds. -/
def leads (i : Instr) (s : State) (p : State → Bool) : Bool :=
  match exec i s with
  | .next t => p t
  | _ => false

/-! ### Formats, written out from chapter 11 -/

/-- The ACK from 2 to 5 with sequence 3: destination, source, kind 11 with the sequence, length 0. -/
theorem test_frame_ack : classify ⟨[0xB4, 0x05, 0x02, 0xB3, 0x00, 0x1D, 0xBB], 0, .idle⟩ = .valid ⟨5, 2, 3, .ack⟩ := by decide

/-- The ASK of 12.1: request id 1, asked 80, minimum 4, no raised contract. -/
theorem test_frame_ask :
    (Frame.mk 2 5 0 (.ask 1 80 4 0)).bytes
      = [0xB4, 0x02, 0x05, 0x20, 0x06, 0x01, 0x00, 0x50, 0x00, 0x04, 0x00, 0x6E, 0x6D] := by decide

/-- The first DECLARE of 12.1. -/
theorem test_frame_declare :
    classify ⟨[0xB4, 0x00, 0x02, 0x10, 0x0B, 0x02, 0x00, 0x8C, 0x32, 0x01, 0x2C, 0x01, 0x2C, 0x00, 0x00, 0x00, 0x87, 0x4E],
      0, .idle⟩ = .valid ⟨0, 2, 0, .declare declared⟩ := by decide

/-- The ALERT of station 8 at 45.80 V. -/
theorem test_frame_alert :
    classify ⟨[0xB4, 0x00, 0x08, 0xA0, 0x02, 0x11, 0xE4, 0x05, 0xC3], 0, .idle⟩ = .valid ⟨0, 8, 0, .alert 4580⟩ := by decide

/-- A wrong CRC byte is malformed, a reception cut short a fragment, and a byte too many malformed (R134, R172). -/
theorem test_frame_damaged :
    classify ⟨[0xB4, 0x05, 0x02, 0xB3, 0x00, 0x1D, 0xBA], 0, .idle⟩ = .malformed
      ∧ classify ⟨[0xB4, 0x05, 0x02, 0xB3, 0x00, 0x1D], 0, .idle⟩ = .fragment
      ∧ classify ⟨[0xB4, 0x05, 0x02, 0xB3, 0x00, 0x1D, 0xBB, 0x00], 0, .idle⟩ = .malformed
      ∧ classify ⟨[0xB5], 0, .idle⟩ = .malformed ∧ classify ⟨[], 0, .idle⟩ = .fragment := by decide

/-- Contention after a wrong CRC leaves the reception malformed, and after a good frame a fragment; bits over are malformed
(R172). -/
theorem test_frame_ends :
    classify ⟨[0xB4, 0x05, 0x02, 0xB3, 0x00, 0x1D, 0xBA], 0, .contention⟩ = .malformed
      ∧ classify ⟨[0xB4, 0x05, 0x02, 0xB3, 0x00, 0x1D, 0xBB], 0, .contention⟩ = .fragment
      ∧ classify ⟨[0xB4, 0x05, 0x02, 0xB3, 0x00, 0x1D, 0xBB], 3, .contention⟩ = .malformed
      ∧ classify ⟨[0xB4, 0x05, 0x02, 0xB3, 0x00, 0x1D], 7, .idle⟩ = .fragment := by decide

/-- Station 5's image is good (R146, R147). -/
theorem test_image_good : checkImage (some image) = .adopt conf := by decide

/-- The checks in their order: no answer, the marker, the version, the CRC (R146). -/
theorem test_image_bad :
    checkImage none = .fault .noMemory ∧ checkImage (some (0 :: image.drop 1)) = .fault .badMarker
      ∧ checkImage (some (image.set 2 2)) = .fault .badVersion ∧ checkImage (some (image.set 3 6)) = .fault .badCrc := by
  decide

/-- The revision order: 1 is newer than 255, and at distance 128 neither is newer (00_scope.md). -/
theorem test_revision_order :
    newer 1 255 = true ∧ newer 255 1 = false ∧ newer 128 0 = false ∧ newer 0 128 = false := by decide

/-! ### One step of each command -/

theorem test_powerOnReset :
    leads (.powerOnReset 5 3) (joined .taker [take 2 1 80 0]) (fun t =>
      t.control.station = .loading && t.engine.table = [] && t.host.address == 0x4F && t.control.resetCause = .powerOn)
      = true := by decide

theorem test_pinReset :
    leads (.pinReset 5) (joined .taker [take 2 1 80 0]) (fun t =>
      t.control.resetHeld && t.control.resetCause = .pin && t.peers = [] && t.path.limit == 0) = true := by decide

theorem test_resetRelease :
    leads (.resetRelease 2 1) { State.reset with
      control := { State.reset.control with resetHeld := true, resetCause := .pin, loadStart := none } } (fun t =>
        !t.control.resetHeld && t.host.address == 0x4D && t.control.resetCause = .pin && t.control.loadStart == some 2)
      = true := by decide

/-- 12.1: station 5's load passes at 15 ms; its listen window is 1000 ms. -/
theorem test_loadComplete :
    leads (.loadComplete 1875 (some image) true) State.reset (fun t =>
      t.control.station = .listening && t.control.listenEnd == some (1875 + 125000) && t.engine.demand == 80
        && !t.control.unpowered && hasEvent .stateChanged t) = true := by decide

theorem test_memoryTimeout :
    leads (.memoryTimeout 0 false) State.reset (fun t =>
      t.control.station = .configFault && t.control.fault = .noMemory && t.now == 12500) = true := by decide

/-- 12.1, 1015 ms: the incarnation, a DECLARE and behind it the ASK of the spare's supplier for 80. -/
theorem test_listenTimerEnd :
    leads (.listenTimerEnd 0 23 4700) { base .listening with
      control := { (base .listening).control with listenEnd := some 126875 }
      peers := [peer 2 300] } (fun t =>
        t.control.station = .joined && t.engine.role = .taker && t.control.incarnation == 23 && t.now == 126875
          && t.link.normal == [⟨0, .declare false, 0⟩, ⟨2, .fixed (.ask 1 80 4 0), 1⟩]) = true := by decide

theorem test_commit :
    leads (.commit 1 0xAA) { base .joined with
      host := { (base .joined).host with staged := request 1 0 9 } } (fun t =>
        t.host.requests == [request 1 0 9] && t.host.staged == request 1 0 9) = true := by decide

theorem test_commit_refused :
    leads (.commit 1 0) { base .joined with
      host := { (base .joined).host with requests := List.replicate 4 (request 1 0 0) } } (fun t =>
        t.host.requests.length == 4 && hasEvent .requestLost t) = true := by decide

theorem test_pop :
    leads (.pop 1 0) { base .joined with host := { (base .joined).host with
      results := [⟨1, 1, .done, []⟩, ⟨2, 1, .done, []⟩] } } (fun t => t.host.results == [⟨2, 1, .done, []⟩]) = true := by
  decide

/-- R160: a pop takes the one request that waited for the place, and the next stays for a happening of its own. -/
theorem test_pop_takes_one :
    leads (.pop 1 0) { base .joined with host := { (base .joined).host with
      results := List.replicate 4 ⟨1, 1, .done, []⟩, requests := [request 9 0 0, request 8 0 0] } } (fun t =>
        t.host.results.map Result.kind == [1, 1, 1, 9] && t.host.requests == [request 8 0 0]) = true := by decide

/-- R164, R176: a request that waited is taken when the write's bytes are applied: what follows its pop, here from the pop
location on, comes before it. -/
theorem test_pop_serves_after_bytes :
    let s := { base .joined with host := { (base .joined).host with
      results := List.replicate 4 ⟨1, 1, .done, []⟩, requests := [request 9 0 0], pointer := 0x01B } }
    popServes s = true ∧ (writeBytes [0, 0] false false s).host.pointer = 0x01D
      ∧ (writeBytes [0, 0] false false s).host.results.map Result.kind = [1, 1, 1, 9] := by decide

theorem test_eventFlagClear :
    leads (.eventFlagClear 0 0x0400) { base .joined with
      host := { (base .joined).host with flags := 0x0480, mask := 0x0080, int := true } } (fun t =>
        t.host.flags == 0x0080 && t.host.int) = true := by decide

/-- Enabling a flag that is set asserts INT at once (R169); bits 11 to 15 read 0 (R176). -/
theorem test_eventMaskWrite :
    leads (.eventMaskWrite 0 0xF480) { base .joined with host := { (base .joined).host with flags := 0x0400 } } (fun t =>
      t.host.mask == 0x0480 && t.host.int) = true := by decide

theorem test_hostWrite :
    leads (.hostWrite 0 [0x00, 0x14, 0x03, 0x21, 0x01] 0) (base .joined) (fun t =>
      t.host.staged == ⟨3, 0x21, 1, 0, 0, 0⟩ && t.host.pointer == 0x017) = true := by decide

/-- STATUS begins with the station state (3 for JOINED), the role, the drain target (0xFF) and the path state. -/
theorem test_hostWrite_reads :
    leads (.hostWrite 0 [0x00, 0x00] 4) (base .joined) (fun t => t.host.out == [3, 0, 0xFF, 0] && t.host.pointer == 4)
      = true := by decide

/-- 12.2: SET_DEMAND(400) asks the larger spare first, 250 for a new contract, then 70 to raise (2, 1). -/
theorem test_setDemand :
    leads (.setDemand 0) (asking (request 1 1 0x90) { joined .taker [take 2 1 80 0] with
      engine := { (joined .taker [take 2 1 80 0]).engine with nextRequest := 2 }
      peers := [peer 2 220, peer 7 250] }) (fun t =>
        t.link.normal.map OutFrame.body == [.fixed (.ask 2 250 4 0), .fixed (.ask 3 70 4 1)]
          && t.host.results == [⟨0x21, 1, .done, []⟩]) = true := by decide

/-- 12.3: SET_CAPACITY(200) over a committed 300 recalls (2, 1) to 200. -/
theorem test_setCapacity :
    leads (.setCapacity 0) (asking (request 2 0 200) (joined .supplier [supply 1 2 300 2])) (fun t =>
      t.engine.table == [{ supply 1 2 300 2 with state := .recalling 200 3 (2000 + 12500) }]
        && t.link.normal.map OutFrame.body == [.fixed (.recall 1 200 3)]) = true := by decide

/-- 12.5: SET_ROLE(IDLE) with one place free removes the first record and leaves the second CLOSING. -/
theorem test_setRole :
    leads (.setRole 0) (asking (request 3 0 0) { joined .taker [take 2 1 200 3, take 7 4 100 0] with
      link := { Link.initial with normal := List.replicate 11 (directed (.hold 1 50)) } }) (fun t =>
        t.engine.role = .drainingTake .idle (.setRole 0x21)
          && t.engine.table == [{ take 7 4 100 0 with state := .closing, owed := some .release }]
          && t.path.limit == 0) = true := by decide

theorem test_leave :
    leads (.leave 0) (asking (request 4 0 0) (joined .idle [])) (fun t =>
      t.control.station = .leaving && t.host.long == some ⟨.leave, 0x21⟩
        && t.link.normal.map OutFrame.body == [.declare true]) = true := by decide

/-- R33 and R34: the drain ends at once with its RELEASE queued, and the final DECLARE takes the waiting DECLARE's place. -/
theorem test_leave_takes_place :
    leads (.leave 0) (asking (request 4 0 0) { joined .taker [take 2 1 80 0] with
      link := { Link.initial with normal := [⟨0, .declare false, 0⟩] } }) (fun t =>
        t.engine.role = .idle && t.link.normal == [⟨0, .declare true, 0⟩, directed (.release 2 1)]) = true := by decide

theorem test_rejoin :
    leads (.rejoin 0) (asking (request 5 0 0) (base .offline)) (fun t =>
      t.control.station = .listening && t.control.listenEnd == some (2000 + 125000)) = true := by decide

/-- 12.6, 1500 ms: OPEN, then RAMPING at the start allowance of an unpowered station. -/
theorem test_reclose :
    leads (.reclose 0) (asking (request 6 0 0) { joined .taker [] with
      control := { (joined .taker []).control with unpowered := true }
      path := { State.reset.path with state := .tripped, limit := 2, limitOut := 2 } }) (fun t =>
        t.path.state = .ramping && t.path.limit == 2 && t.path.pathEn && t.host.results == [⟨0x21, 6, .done, []⟩])
      = true := by decide

theorem test_clearUnpowered :
    leads (.clearUnpowered 0) (asking (request 7 0 0) { joined .taker [] with
      control := { (joined .taker []).control with unpowered := true } }) (fun t =>
        !t.control.unpowered && t.path.limit == 0 && t.host.results == [⟨0x21, 7, .done, []⟩]) = true := by decide

/-- The entry of peer 2 by the layout of 11.4. -/
theorem test_readPeers :
    leads (.readPeers 0) (asking (request 8 0 0) { base .joined with peers := [peer 2 300] }) (fun t =>
      t.host.results == [⟨0x21, 8, .done, [2, 140, 2, 50, 0x01, 0x2C, 0x01, 0x2C, 0, 0]⟩]) = true := by decide

/-- The entry of (2, 1) ACTIVE at 300, revision 2, by the layout of 11.4. -/
theorem test_readContracts :
    leads (.readContracts 0) (asking (request 9 0 0) (joined .taker [take 2 1 300 2])) (fun t =>
      t.host.results == [⟨0x21, 9, .done, [2, 1, 2, 0x03, 0x01, 0x2C, 2, 0, 0]⟩]) = true := by decide

theorem test_restart :
    leads (.restart ⟨0, 2⟩) (asking (request 10 0 0) (joined .taker [take 2 1 300 2])) (fun t =>
      t.control.resetCause = .command && t.host.address == 0x4E && t.host.results == [] && t.control.station = .loading) = true := by decide

theorem test_unknownRequest :
    leads (.unknownRequest 0) (asking (request 11 0 0) (base .joined)) (fun t =>
      t.host.results == [⟨0x21, 11, .refusedArg, []⟩]) = true := by decide

theorem test_receiveDeclare :
    leads (.receiveDeclare 0 (whole (.declare declared))) (base .listening) (fun t =>
      t.peers.map Peer.spare == [300] && hasEvent .peerJoined t && t.link.inbound == []) = true := by decide

theorem test_receiveAlert :
    leads (.receiveAlert 0 (whole (.alert 4580))) (joined .taker []) (fun t =>
      t.path.lastAlert == some 2000 && t.link.inbound == [frame (.alert 4580)]) = true := by decide

/-- 12.1, 1017 ms: the ask enters ASKED with its deadline 200 ms on. -/
theorem test_receiveAck :
    leads (.receiveAck 62 ⟨(Frame.mk 5 2 1 .ack).bytes, 0, .idle⟩)
      (sending (attempt ⟨2, .fixed (.ask 1 80 4 0), 9⟩ (.ask 1 80 4 0)) (askingTwo (.queued 9))) (fun t =>
        t.engine.asks.map Ask.state == [.asked (2062 + 25000)] && t.link.current == none
          && t.link.counters.framesSent == 1) = true := by decide

/-- R130, R131: the ACK of a destination whose entry was lost meanwhile ends the attempt as SENT; R21: it makes no entry. -/
theorem test_receiveAck_lost_entry :
    leads (.receiveAck 62 ⟨(Frame.mk 5 2 1 .ack).bytes, 0, .idle⟩)
      (sending (attempt ⟨2, .fixed (.ask 1 80 4 0), 9⟩ (.ask 1 80 4 0)) { askingTwo (.queued 9) with peers := [] }) (fun t =>
        t.engine.asks.map Ask.state == [.asked (2062 + 25000)] && t.link.current == none && t.peers == []
          && t.link.counters.framesSent == 1) = true := by decide

theorem test_receiveDirectedFrame :
    leads (.receiveDirectedFrame 0 (whole (.hold 1 50))) (joined .taker []) (fun t =>
      t.link.inbound == [frame (.hold 1 50)] && t.link.ackDue == some ⟨2, 3, 2006⟩) = true := by decide

theorem test_malformedReception :
    leads (.malformedReception 0 ⟨[0xB5], 0, .idle⟩) (joined .taker []) (fun t => t.link.counters.crcErrors == 1) = true := by
  decide

theorem test_fragment :
    leads (.fragment 0 ⟨[0xB4], 0, .idle⟩) (joined .taker []) (fun t => t.link.counters.crcErrors == 0) = true := by decide

/-- A fragment cut 3 bit times into its first byte, begun at the last bit time of the window (2004 + 14), fails the attempt;
one begun a bit time later does not (R130). -/
theorem test_fragment_in_window :
    let s := sending (attempt ⟨2, .fixed (.ask 1 80 4 0), 9⟩ (.ask 1 80 4 0)) (askingTwo (.queued 9))
    leads (.fragment 21 ⟨[], 3, .idle⟩) s (fun t => t.link.current.map Current.phase == some .backoff) = true
      ∧ leads (.fragment 22 ⟨[], 3, .idle⟩) s (fun t => t.link.current.map Current.phase == some (.attempting 1900)) = true := by
  decide

theorem test_ackTransmit :
    leads (.ackTransmit 0) { joined .taker [] with link := { Link.initial with ackDue := some ⟨2, 3, 2006⟩ } } (fun t =>
      t.link.ackOut == some ⟨2, 3, 2006⟩ && t.now == 2006) = true := by decide

theorem test_collision :
    leads (.collision 0) (sending ⟨directed (.hold 1 50), 1, 1, 0, .attempting 1990, .hold 1 50⟩ (joined .taker []))
      (fun t => t.link.counters.collisions == 1 && t.link.current.map Current.phase == some .backoff) = true := by decide

/-- A DECLARE is composed at the start of its attempt: spare 220 after one grant of 80 (12.1, 1061 ms). -/
theorem test_quietGapEnd :
    leads (.quietGapEnd 0 0) { joined .supplier [supply 1 2 80 0] with
      link := { Link.initial with idleSince := some 2000, normal := [⟨0, .declare false, 0⟩] } } (fun t =>
        t.now == 2024 && t.link.current.map Current.content
          == some (.declare ⟨2, false, true, false, 0, 50, 300, 220, 0, [⟨2, 1, 80, 0⟩]⟩)) = true := by decide

theorem test_retryGapEnd :
    leads (.retryGapEnd 0 15) (sending ⟨directed (.hold 1 50), 1, 1, 1, .backoff, .hold 1 50⟩ (joined .taker [])) (fun t =>
      t.now == 2084 && t.link.current == some ⟨directed (.hold 1 50), 1, 2, 1, .attempting 2084, .hold 1 50⟩) = true := by
  decide

/-- 12.6, 3 ms: ALERT SENT sets the last-alert time. -/
theorem test_broadcastTransmissionEnd :
    leads (.broadcastTransmissionEnd 0) (sending (attempt ⟨0, .fixed (.alert 4580), 0⟩ (.alert 4580)) (joined .taker []))
      (fun t => t.path.lastAlert == some 2000 && t.link.counters.framesSent == 1) = true := by decide

/-- 12.4: the eighth failure gives the GRANT up, and its PROVISIONAL record goes. -/
theorem test_ackWindowClose :
    leads (.ackWindowClose 0) (sending { attempt (directed (.grant 4 6 60 0)) (.grant 4 6 60 0) with failures := 7 }
      (joined .supplier [{ supply 6 2 60 0 with state := .provisional }])) (fun t =>
        t.engine.table == [] && hasEvent .linkGiveup t && t.link.counters.giveUps == 1) = true := by decide

/-- 12.1, 1017 ms: an ASK of 80 against 300 is granted under id 1; the counter moves to 2. -/
theorem test_consumeAsk :
    leads (.consumeAsk 0) (inbound (.ask 1 80 4 0) (joined .supplier [])) (fun t =>
      t.engine.table == [{ supply 1 2 80 0 with state := .provisional }] && t.engine.nextContract == 2
        && t.path.limit == 80 && t.path.state = .ramping
        && t.link.normal.map OutFrame.body == [.fixed (.grant 1 1 80 0)]) = true := by decide

/-- 12.2: free 0 below the minimum, and no open grant: DECLINE NO_BUDGET. -/
theorem test_consumeAsk_declined :
    leads (.consumeAsk 0) (inbound (.ask 4 150 4 4) (joined .supplier [supply 4 2 300 0])) (fun t =>
      t.link.normal.map OutFrame.body == [.fixed (.decline 4 1)]) = true := by decide

/-- 12.1, 1018 ms. -/
theorem test_consumeGrant :
    leads (.consumeGrant 0) (inbound (.grant 1 1 80 0) (askingTwo (.asked 2500))) (fun t =>
      t.engine.table == [take 2 1 80 0] && t.engine.asks == [] && t.path.limit == 80) = true := by decide

/-- A late GRANT of an unknown contract is released (R54; 12.6). -/
theorem test_consumeGrant_late :
    leads (.consumeGrant 0) (inbound (.grant 1 5 40 0) (joined .taker [])) (fun t =>
      t.engine.table == [] && t.link.normal.map OutFrame.body == [.fixed (.release 2 5)]) = true := by decide

theorem test_consumeHold :
    leads (.consumeHold 0) (inbound (.hold 1 50) (askingTwo (.asked 2500))) (fun t =>
      t.engine.asks.map (fun a => (a.state, a.holds)) == [(.held (2000 + 6250), 1)]) = true := by decide

theorem test_consumeDecline :
    leads (.consumeDecline 0) (inbound (.decline 1 1) (askingTwo (.asked 2500))) (fun t =>
      t.engine.asks == [] && t.peers.map Peer.skip == [true, false]) = true := by decide

theorem test_consumeTrim :
    leads (.consumeTrim 0) (inbound (.trim 1 30 1) (joined .supplier [supply 1 2 80 0])) (fun t =>
      t.engine.table == [supply 1 2 30 1] && t.path.limit == 30) = true := by decide

/-- 12.3, 2 ms: the RECALL to 200 at revision 3 is answered with YIELD, and the shed window opens. -/
theorem test_consumeRecall :
    leads (.consumeRecall 0) (inbound (.recall 1 200 3) { joined .taker [take 2 1 300 2] with
      engine := { (joined .taker [take 2 1 300 2]).engine with demand := 400 }
      path := { State.reset.path with state := .closed, limit := 300, pathSense := 390 } }) (fun t =>
        t.engine.table == [take 2 1 200 3] && t.link.normal.map OutFrame.body == [.fixed (.yield 1 200 3)]
          && t.path.limit == 200 && t.path.overdraw == some 2000 && t.path.shedEnd == some (2000 + 12500)) = true := by decide

/-- 12.3, 3 ms: the YIELD at the target revision resolves the recall. -/
theorem test_consumeYield :
    leads (.consumeYield 0) (inbound (.yield 1 200 3)
      (joined .supplier [{ supply 1 2 300 2 with state := .recalling 200 3 9999 }])) (fun t =>
        t.engine.table == [supply 1 2 200 3] && committed t == 200) = true := by decide

theorem test_consumeRelease :
    leads (.consumeRelease 0) (inbound (.release 2 1) (joined .taker [take 2 1 80 0])) (fun t =>
      t.engine.table == [] && hasEvent .contractsChanged t) = true := by decide

/-- 12.4, 6 ms and after: the record left out counts a miss, and goes at the second. -/
theorem test_consumeDeclare :
    leads (.consumeDeclare 0) (inbound (.declare declared) (joined .taker [take 2 6 60 0])) (fun t =>
      t.engine.table == [{ take 2 6 60 0 with miss := 1 }]) = true := by decide

/-- 12.6, 2 ms: the shed closes the record, removes the ask and suspends asking for 1000 ms. -/
theorem test_consumeAlert :
    leads (.consumeAlert 0) (inbound (.alert 4580) { askingTwo (.asked 2500) with
      engine := { (askingTwo (.asked 2500)).engine with table := [take 7 5 40 0] } }) (fun t =>
        t.engine.table == [] && t.engine.asks == [] && t.engine.suspendEnd == some (2000 + 125000)
          && t.link.normal.map OutFrame.body == [.fixed (.release 7 5)] && hasEvent .alert t) = true := by decide

theorem test_peerSilent :
    leads (.peerSilent 0 2) (joined .taker []) (fun t =>
      t.now == 1000 + 125000 && t.peers.map Peer.liveness == [.silent, .active]) = true := by decide

theorem test_peerLostThreshold :
    leads (.peerLostThreshold 0 2) (joined .taker [take 2 1 80 0]) (fun t =>
      t.peers.map Peer.addr == [7] && t.engine.table == [] && hasEvent .peerLost t) = true := by decide

theorem test_askTimeout :
    leads (.askTimeout 0 2) (askingTwo (.asked 2500)) (fun t =>
      t.now == 2500 && t.engine.asks == [] && t.peers.map Peer.skip == [true, false]) = true := by decide

/-- The hold has ended, so the ask goes back to the queue in the same happening (R49). -/
theorem test_holdEnd :
    leads (.holdEnd 0 2) (askingTwo (.held 2500)) (fun t =>
      t.now == 2500 && t.link.normal.map OutFrame.body == [.fixed (.ask 1 80 4 0)]) = true := by decide

theorem test_recallDeadline :
    leads (.recallDeadline 0 1) (joined .supplier [{ supply 1 2 300 2 with state := .recalling 200 3 2400 }]) (fun t =>
      t.now == 2400 && t.engine.table == [] && t.link.normal.map OutFrame.body == [.fixed (.release 5 1)]) = true := by
  decide

theorem test_declarePeriodDue :
    leads (.declarePeriodDue 0) (joined .taker []) (fun t =>
      t.now == 62500 && t.link.normal.map OutFrame.body == [.declare false]) = true := by decide

theorem test_declareSpacingEnd :
    leads (.declareSpacingEnd 0) { joined .taker [] with
      engine := { (joined .taker []).engine with changePending := true } } (fun t =>
        t.now == 6250 && t.link.normal.map OutFrame.body == [.declare false]) = true := by decide

/-- 12.6, 1505 ms. -/
theorem test_rampEnd :
    leads (.rampEnd 0) { joined .taker [take 2 1 80 0] with path := { State.reset.path with
      state := .ramping, limit := 80, rampEnd := some 2100 } } (fun t => t.path.state = .closed && t.now == 2100)
      = true := by decide

/-- 12.6, 2 ms: 38 exceeds 2 + 2, so the timer starts; 82 against 80 + 2 does not. -/
theorem test_pathCurrentChange :
    leads (.pathCurrentChange 0 83) { joined .taker [take 2 1 80 0] with path := { State.reset.path with
      state := .closed, limit := 80 } } (fun t => t.path.overdraw == some 2000) = true
      ∧ leads (.pathCurrentChange 0 82) { joined .taker [take 2 1 80 0] with path := { State.reset.path with
        state := .closed, limit := 80 } } (fun t => t.path.overdraw == none) = true := by decide

theorem test_trip :
    leads (.trip 0) { joined .taker [take 2 1 80 0] with path := { State.reset.path with
      state := .closed, limit := 80, pathSense := 90, overdraw := some 1500 } } (fun t =>
        t.path.state = .tripped && t.engine.table == [] && t.now == 2750 && hasEvent .pathTripped t) = true := by decide

/-- 12.6, 102 ms: the window closes with 100 ms elapsed, so the path trips. -/
theorem test_shedWindowClose :
    leads (.shedWindowClose 0) { joined .taker [] with
      control := { (joined .taker []).control with unpowered := true }
      path := { State.reset.path with
        state := .closed, limit := 2, pathSense := 38, overdraw := some 2000, shedEnd := some 14500 } } (fun t =>
        t.path.state = .tripped && t.now == 14500 && t.path.limit == 2 && t.path.shedEnd == none) = true := by decide

/-- 12.6, 0 ms. -/
theorem test_railLow :
    leads (.railLow 0 4580) (joined .taker []) (fun t => t.path.railTimer == some 2000) = true := by decide

/-- 12.6, 300 ms. -/
theorem test_railRestored :
    leads (.railRestored 0 4700) { joined .taker [] with path := { State.reset.path with armed := false } } (fun t =>
      t.path.armed && t.path.railTimer == none) = true := by decide

/-- 12.6, 2 ms. -/
theorem test_brownout :
    leads (.brownout 0 4580) { joined .taker [take 2 5 40 0] with path := { State.reset.path with railTimer := some 2000 } }
      (fun t => t.now == 2250 && t.link.urgent.map OutFrame.body == [.fixed (.alert 4580)] && t.engine.table == []
        && !t.path.armed && hasEvent .alert t) = true := by decide

theorem test_alertSuspensionEnd :
    leads (.alertSuspensionEnd 0) { joined .taker [] with
      engine := { (joined .taker []).engine with suspendEnd := some 2100 }
      peers := [peer 2 300] } (fun t =>
        t.engine.suspendEnd == none && t.link.normal.map OutFrame.body == [.fixed (.ask 1 80 4 0)]) = true := by decide

/-- The loss of the supply leaves committed 80 over an effective capacity of 0: everything is recalled (R62, R71). -/
theorem test_supplyLoss :
    leads (.supplyLoss 0) (joined .supplier [supply 1 2 80 0]) (fun t =>
      !t.engine.supply && t.link.normal.map OutFrame.body == [.fixed (.recall 1 0 1)]) = true := by decide

theorem test_supplyReturn :
    leads (.supplyReturn 0) { joined .supplier [] with
      engine := { (joined .supplier []).engine with supply := false } } (fun t => t.engine.supply) = true := by decide

/-! ### Witnesses: what the hypotheses of a statement ask for can be met, clause by clause -/

/-- Station 5 as SUPPLIER in mid-work: three records with two takers, a queue with a DECLARE, a CLOSED path at the limit
that R111 gives, and a SET_CAPACITY(200) in front of the queue of commands. -/
def working : State :=
  { asking (request 2 0 200) (joined .supplier
      [supply 1 2 200 2, { supply 2 7 60 1 with state := .raising 40 0 },
        { supply 3 7 30 1 with state := .recalling 10 2 9999 }]) with
    link := { Link.initial with normal := [⟨0, .declare false, 0⟩, directed (.grant 1 2 60 1)], idleSince := some 2000 }
    path := { State.reset.path with state := .closed, limit := 290, pathEn := true, limitOut := 290 }
    pending := [.setCapacity 0, .trip 5] }

theorem witness_StepRunsFrontCommand : working.pending = .setCapacity 0 :: [.trip 5] := by decide

theorem witness_step_answers : ∃ t, step working = .next t := ⟨_, rfl⟩

theorem witness_OutputsAgreeKept : OutputsAgree working := by unfold OutputsAgree; decide

theorem witness_PathOpenAtZeroKept : PathOpenAtZero working := by unfold PathOpenAtZero; decide

theorem witness_QueuesBoundedKept : QueuesBounded working := by unfold QueuesBounded; decide

theorem witness_SilentKept : Silent working := by unfold Silent; decide

theorem witness_PeersCoverKept : PeersCover working := by unfold PeersCover; decide

theorem witness_TablesSoundKept : TablesSound working := by unfold TablesSound TablesOrdered PeersOrdered; decide

/-- No purpose of a drain is a SET_ROLE while there is no drain. -/
theorem working_no_purpose : working.engine.role.purpose = none := rfl

theorem witness_RequestsSoundKept : RequestsSound working :=
  ⟨by unfold LeavingAgrees; decide,
    ⟨by decide, fun _ => by rw [working_no_purpose]; exact nofun⟩,
    by unfold ResultPlaces; decide⟩

theorem witness_RolesSoundKept : RolesSound working := by
  unfold RolesSound LeavingAgrees SidesAgree AsksAllowed TripClosed; decide

theorem witness_CountersInRangeKept : CountersInRange working := by unfold CountersInRange; decide

theorem witness_RestsUnloadedKept : RestsUnloaded working := by unfold RestsUnloaded; decide

/-- A DECLARE with the 16 summaries of a full table, and a directed frame between the two ends of the address range. -/
theorem witness_FramesRoundTrip :
    (Frame.mk 0 30 0 (.declare { declared with summaries := List.replicate 16 ⟨5, 255, 400, 255⟩ })).fits = true
      ∧ (Frame.mk 30 1 15 (.ask 15 400 400 255)).fits = true := by decide

theorem witness_CrcFollowsR171 :
    classify ⟨[0xB4, 0x05, 0x02, 0xB3, 0x00, 0x1D, 0xBB], 0, .idle⟩ = .valid ⟨5, 2, 3, .ack⟩
      ∧ checkImage (some image) = .adopt conf := by decide

/-- The good image with a byte changed and its CRC made to fit. -/
def imageWith (i : Nat) (v : Byte) : List Byte := (image.set i v).take 28 ++ crcBytes ((image.set i v).take 28)

theorem witness_AdoptedConfigInRange : checkImage (some image) = .adopt conf := by decide

/-- 29 bytes, a wrong marker byte, version 2, a wrong CRC, the first bad field (address 31; sheddable code 2), none bad. -/
theorem witness_AdoptedConfigInRange_checks :
    (image.take 29).length < 30 ∧ (30 ≤ (image.set 1 0x3B).length ∧ ((image.set 1 0x3B).getD 1 0).toNat ≠ 0x3A)
      ∧ ((image.set 2 2).getD 2 0).toNat ≠ 1 ∧ ((image.set 29 1).drop 28).take 2 ≠ crcBytes ((image.set 29 1).take 28)
      ∧ (((imageWith 3 31).drop 28).take 2 = crcBytes ((imageWith 3 31).take 28)
        ∧ checkImage (some (imageWith 3 31)) = .fault (.badField 1))
      ∧ checkImage (some (imageWith 23 2)) = .fault (.badField 15)
      ∧ (image.drop 28).take 2 = crcBytes (image.take 28) ∧ conf.startRole.code = (image.getD 4 0).toNat := by decide

theorem witness_EndOfHappeningFrame :
    (base .offline).control.station.speaks = false ∧ (base .offline).control.station ≠ .loading := by decide

/-- A role, an unpowered flag and an effective capacity that the happening changed, and a record that its end removes. -/
theorem witness_EndOfHappeningFrame_changes :
    let m := joined .taker [{ take 2 1 80 0 with state := .closing, owed := some .release }, take 7 4 20 0]
    let p : State := { m with
      engine := { m.engine with role := .idle, capacity := 200 }, control := { m.control with unpowered := true } }
    let t := settle false p m
    m.engine.table.Pairwise (fun q r => ¬ (q.supplier = r.supplier ∧ q.id = r.id)) ∧ m.control.station.speaks = true
      ∧ p.engine.role.value ≠ t.engine.role.value ∧ m.engine.role.value = t.engine.role.value
      ∧ effectiveCapacity p ≠ effectiveCapacity t ∧ p.control.unpowered ≠ t.control.unpowered
      ∧ t.engine.table = [take 7 4 20 0] := by decide

theorem witness_EndOfHappeningAddsNoRecord :
    { supply 1 2 200 2 with state := .recalling 100 3 (2000 + 12500) } ∈ (settle false working
      { working with engine := { working.engine with capacity := 170 } }).engine.table := by decide

/-- A TAKER with one ask that waits, one that stands and a supplier left to ask: a raise of (7, 4) by the 40 it can spare. -/
def taking : State :=
  { joined .taker [take 7 4 20 0] with
    engine := { (joined .taker [take 7 4 20 0]).engine with
      demand := 300
      asks := [pendingAsk (.waiting 1990), { pendingAsk (.asked 9999) with supplier := 9 }] }
    peers := [peer 2 80, peer 7 40, peer 9 80] }

theorem witness_EndOfHappeningAddsNoRecord_asks :
    TablesOrdered taking ∧ 1 ≤ (cfg taking).minGrant := by unfold TablesOrdered PeersOrdered; decide

theorem witness_EndOfHappeningAddsNoRecord_new :
    (settle false taking taking).engine.asks
      = [pendingAsk (.queued 1), { pendingAsk (.asked 9999) with supplier := 9 }, ⟨7, 1, some 4, 40, 4, .queued 2, 0⟩] := by
  decide

/-- Station 5 drawing 80 by a path in the state given, its reading above the limit and the margin. -/
def watched (p : PathState) (table : List Record) : State :=
  { joined .taker table with path := { State.reset.path with state := p, limit := 80, pathSense := 83 } }

/-- The limit is 0 or above it in each state of the path, the reading at the limit with the margin or above it, and a shed
cause lowers the limit from 80 to 30. -/
theorem witness_LimitFollows :
    working.control.station ≠ .loading
      ∧ ((watched .closed []).path.state ≠ .tripped ∧ limitOf (settle false (watched .closed []) (watched .closed [])) = 0)
      ∧ 0 < limitOf (settle false (watched .opened [take 2 1 80 0]) (watched .opened [take 2 1 80 0]))
      ∧ (let s := watched .closed [take 2 1 80 0]
        (settle false s s).path.state = .closed ∧ (settle false s s).path.overdraw = some 2000)
      ∧ (let s := { watched .closed [take 2 1 80 0] with path := { (watched .closed []).path with pathSense := 82 } }
        (settle false s s).path.overdraw = none)
      ∧ (let p := watched .closed [take 2 1 80 0]
        let m := watched .closed [take 2 1 30 0]
        p.control.station = m.control.station ∧ held m < held p ∧ limitOf (settle true p m) < p.path.limit
          ∧ (settle true p m).engine.role.supplies = false) := by decide

/-- A supplier with an uncovered excess: 290 − 20 committed against a capacity of 170. -/
theorem witness_RecallPlanningCovers :
    let m := { working with engine := { working.engine with capacity := 170 } }
    m.engine.table.Pairwise (fun q r => ¬ (q.supplier = r.supplier ∧ q.id = r.id))
      ∧ m.control.station.speaks = true ∧ m.engine.role = .supplier ∧ uncovered m = 100 := by decide

/-- A drain with an ACTIVE record, a taker that holds 100 over its demand of 80, an ask that waits with room in the queue,
a taker that
may ask for more while no peer is left to ask, and one that may while its supplier's contract is within 3 of the ceiling. -/
theorem witness_RecallPlanningCovers_others :
    let drain := joined (.drainingSupply .idle .leaving) [supply 1 2 200 2]
    let trims := joined .taker [take 2 1 60 0, take 7 4 40 0]
    let t := settle false taking taking
    (drain.control.station.speaks = true ∧ drain.engine.role = .drainingSupply .idle .leaving)
      ∧ (trims.engine.role = .taker ∧ held trims = 100 ∧ (settle false trims trims).engine.demand = 80)
      ∧ (taking.engine.table.Pairwise (fun q r => ¬ (q.supplier = r.supplier ∧ q.id = r.id))
        ∧ t.link.normal.length < 12 ∧ taking.engine.asks.length ≤ 4)
      ∧ (t.control.station = .joined ∧ t.engine.role = .taker ∧ t.path.state ≠ .tripped ∧ t.engine.suspendEnd = none
        ∧ held t + outstanding t + (cfg t).minGrant ≤ t.engine.demand ∧ t.engine.asks.length < 4)
      ∧ (let m := { joined .taker [take 2 1 397 0] with
          engine := { (joined .taker [take 2 1 397 0]).engine with demand := 500 }
          peers := [peer 2 80] }
        let u := settle false m m
        u.peers = [peer 2 80] ∧ (cfg u).minGrant ≤ 80 ∧ u.engine.asks = [] ∧ takeWith u 2 = some (take 2 1 397 0)
          ∧ held u + outstanding u + (cfg u).minGrant ≤ u.engine.demand ∧ u.link.normal.length < 12) := by decide

/-- The worked example of section 1.6: 280 committed against a capacity of 150. -/
def recalling150 : State :=
  let s := joined .supplier [supply 12 2 120 4, supply 13 7 100 0, supply 15 2 60 2]
  { s with engine := { s.engine with capacity := 150 } }

/-- Its plan, with target 0 for the newest record and 30 for the next; the plan where the oldest became ACTIVE in the
happening and is taken first; and the rounding of a target of 3 to 0 (R71). -/
theorem witness_RecallPlanningCovers_plan :
    let s := recalling150
    let raw : Record := { supply 12 2 120 4 with state := .provisional }
    decidedTable s s = [supply 12 2 120 4,
        { supply 13 7 100 0 with state := .recalling 30 1 14500, owed := some .recall },
        { supply 15 2 60 2 with state := .recalling 0 3 14500, owed := some .recall }]
      ∧ decidedTable { s with engine := { s.engine with table := raw :: s.engine.table.drop 1 } } s
        = [{ supply 12 2 120 4 with state := .recalling 0 5 14500, owed := some .recall }, supply 13 7 100 0,
          { supply 15 2 60 2 with state := .recalling 50 3 14500, owed := some .recall }]
      ∧ recallPlan 4 57 [supply 15 2 60 2] = [(supply 15 2 60 2, 0)] := by decide

/-- Trims of 100 over a demand of 30: the newest record ends, the next is trimmed by the rest with its revision one newer, and
one that a raise names stands (R55). -/
theorem witness_RecallPlanningCovers_trims :
    let s := joined .taker [take 2 1 60 255, take 7 4 40 0]
    let raise : Ask := { pendingAsk (.asked 9999) with supplier := 7, raised := some 4 }
    let m : State := { s with engine := { s.engine with demand := 30 } }
    let named : State := { m with engine := { m.engine with asks := [raise] } }
    decidedTable m m = [{ take 2 1 30 0 with owed := some .trim },
        { take 7 4 40 0 with state := .closing, owed := some .release }]
      ∧ decidedTable named named = [{ take 2 1 60 255 with state := .closing, owed := some .release }, take 7 4 40 0] := by
  decide

/-- A queue with one place left takes the older of two notices owed, and one that was full before the happening gives the
place to the due DECLARE (R12, R13, R33). -/
theorem witness_RecallPlanningCovers_places :
    let closing : Record := { take 2 1 60 0 with state := .closing, owed := some .yield }
    let owing : Record := { take 7 4 40 3 with owed := some .trim }
    let filled (n : Nat) : State :=
      let s := joined .taker [closing, owing]
      { s with
        engine := { s.engine with declareDue := true }
        link := { s.link with normal := List.replicate n (directed (.hold 1 50)) } }
    let t := settle false (filled 11) (filled 11)
    let u := settle false (filled 12) (filled 11)
    (∀ r ∈ (filled 11).engine.table, r.owed = some .recall → r.isRecalling = true)
      ∧ (t.engine.table = [owing] ∧ t.link.normal.getLast? = some (directed (.yield 1 0 0)) ∧ t.engine.declareDue = true)
      ∧ (u.engine.table = [closing, owing] ∧ u.link.normal.getLast? = some ⟨0, .declare false, 0⟩) := by decide

/-- Station 5 held in reset. -/
def heldInReset : State :=
  { State.reset with control := { State.reset.control with resetHeld := true, loadStart := none, resetCause := .pin } }

theorem witness_ResetCommandsReset :
    let s := asking (request 10 0 0) (base .joined)
    working.control.resetHeld = false ∧ heldInReset.control.resetHeld = true
      ∧ (s.control.resetHeld = false ∧ s.control.station ≠ .loading ∧ s.host.requests = request 10 0 0 :: []
        ∧ (request 10 0 0).kind.toNat = 10) := by decide

theorem witness_HeldResetHolds :
    heldInReset.control.resetHeld = true ∧ heldInReset.link.ackOut = none ∧ isReset (.commit 5 0) = false := by decide

/-- The limit of the read, 12500 bit times, is still in time; one more is too late. -/
theorem witness_LoadEnds :
    State.reset.control.resetHeld = false ∧ State.reset.control.station = .loading
      ∧ State.reset.control.loadStart = some 0
      ∧ (State.reset.now + 12500 ≤ 0 + 12500 ∧ checkImage (some (image.set 3 6)) = .fault .badCrc)
      ∧ checkImage (some image) = .adopt conf ∧ 0 + 12500 < State.reset.now + 12501 := by decide

/-- Station 5 at the end of its listen window, with a request in progress or none. -/
def listening (long : Option LongRequest) : State :=
  { base .listening with
    control := { (base .listening).control with listenEnd := some 126875 }
    host := { (base .listening).host with long := long, reserved := if long.isSome then 1 else 0 } }

theorem witness_ListenEndJoins :
    (listening none).control.resetHeld = false ∧ (listening none).control.station = .listening
      ∧ (listening none).control.listenEnd = some 126875 ∧ (listening none).link.normal = []
      ∧ (listening none).engine.table = [] ∧ (listening none).engine.asks = []
      ∧ (listening none).host.long = none
      ∧ (listening (some ⟨.rejoin, 7⟩)).host.long = some ⟨.rejoin, 7⟩ := by decide

/-- The host queues with the requests and results given. -/
def queued (requests : List Request) (results : List Result) : State :=
  { base .joined with host := { (base .joined).host with requests := requests, results := results } }

/-- A result. -/
def result : Result := ⟨1, 1, .done, []⟩

theorem witness_CommitAndPop :
    (queued [] []).control.resetHeld = false
      ∧ (queued (List.replicate 3 (request 1 0 0)) []).host.requests.length < 4
      ∧ 4 ≤ (queued (List.replicate 4 (request 1 0 0)) []).host.requests.length
      ∧ (queued [] []).host.results = []
      ∧ ((queued [request 1 0 0] (List.replicate 3 result)).host.results = result :: [result, result]
        ∧ (takeable (advance 0 (queued [request 1 0 0] (List.replicate 3 result)))).isSome = true)
      ∧ ((queued [request 1 0 0] (List.replicate 4 result)).host.results = result :: [result, result, result]
        ∧ takeable (advance 0 (queued [request 1 0 0] (List.replicate 4 result))) = none) := by decide

theorem witness_FlagsAndMaskWritten : working.control.resetHeld = false := by decide

theorem witness_HostWritesAndReads :
    working.control.resetHeld = false ∧ working.host.pointer = 0 ∧ working.host.requests.length < 4
      ∧ { working with host := { working.host with requests := List.replicate 3 (request 1 0 0) } }.host.requests.length < 4
      ∧ 0 < 1 ∧ ((0x00 : Byte) ++ (0x0F : Byte)).toNat < 0x010 ∧ 0x01C ≤ ((0x00 : Byte) ++ (0x1C : Byte)).toNat := by decide

/-- The largest value is 2000. -/
theorem witness_ValuesAreSet :
    (request 1 0x07 0xD0).value = 2000 ∧ (base .joined).control.station = .joined
      ∧ Taking 1 (request 1 0x07 0xD0) [] (asking (request 1 0x07 0xD0) (base .joined))
      ∧ Taking 2 (request 2 0x07 0xD0) [] (asking (request 2 0x07 0xD0) (base .joined)) := by unfold Taking; decide

theorem witness_RequestsRefused :
    Taking 0 (request 0 0 0) [] (asking (request 0 0 0) (base .joined))
      ∧ Taking 11 (request 11 0 0) [] (asking (request 11 0 0) (base .joined))
      ∧ (Taking 1 (request 1 0x07 0xD1) [] (asking (request 1 0x07 0xD1) (base .joined))
        ∧ 2000 < (request 1 0x07 0xD1).value)
      ∧ (Taking 2 (request 2 0x07 0xD1) [] (asking (request 2 0x07 0xD1) (base .joined))
        ∧ 2000 < (request 2 0x07 0xD1).value)
      ∧ (Taking 3 (request 3 3 0) [] (asking (request 3 3 0) (base .joined)) ∧ 3 ≤ (request 3 3 0).arg0.toNat)
      ∧ (Taking 1 (request 1 0x07 0xD0) [] (asking (request 1 0x07 0xD0) (base .leaving))
        ∧ (request 1 0x07 0xD0).value ≤ 2000 ∧ (base .leaving).control.station ≠ .joined)
      ∧ (Taking 2 (request 2 0x07 0xD0) [] (asking (request 2 0x07 0xD0) (base .duplicate))
        ∧ (request 2 0x07 0xD0).value ≤ 2000 ∧ (base .duplicate).control.station ≠ .joined)
      ∧ (Taking 3 (request 3 2 0) [] (asking (request 3 2 0) (base .offline)) ∧ (request 3 2 0).arg0.toNat < 3
        ∧ (base .offline).control.station ≠ .joined) := by unfold Taking; decide

/-- Station 5 in JOINED and IDLE without its supply. -/
def unsupplied : State :=
  { joined .idle [] with engine := { (joined .idle []).engine with supply := false } }

theorem witness_RequestsRefused_conditions :
    (Taking 3 (request 3 2 0) [] (asking (request 3 2 0) unsupplied) ∧ (request 3 2 0).arg0.toNat = 2
        ∧ unsupplied.control.station = .joined ∧ unsupplied.engine.role.value ≠ .supplier
        ∧ unsupplied.engine.role.value ≠ .drainingSupply
        ∧ supplyTestFails (asking (request 3 2 0) unsupplied) = true)
      ∧ (Taking 4 (request 4 0 0) [] (asking (request 4 0 0) (base .configFault))
        ∧ (base .configFault).control.station ≠ .joined ∧ (base .configFault).control.station ≠ .listening)
      ∧ (Taking 4 (request 4 0 0) [] (asking (request 4 0 0) (listening none))
        ∧ (listening none).control.station = .listening ∧ (listening none).host.long = none)
      ∧ (Taking 5 (request 5 0 0) [] (asking (request 5 0 0) (base .joined)) ∧ (base .joined).control.station ≠ .offline)
      ∧ (Taking 6 (request 6 0 0) [] (asking (request 6 0 0) (base .joined)) ∧ (base .joined).path.state ≠ .tripped)
      ∧ (Taking 7 (request 7 0 0) [] (asking (request 7 0 0) unsupplied) ∧ unsupplied.engine.supply = false) := by
  unfold Taking; decide

theorem witness_RoleMovesAtOnce :
    Target.ofCode (request 3 1 0).arg0.toNat = some .taker ∧ Target.ofCode (request 3 2 0).arg0.toNat = some .supplier
      ∧ (Taking 3 (request 3 1 0) [] (asking (request 3 1 0) (joined .taker []))
        ∧ (joined .taker []).engine.role = Target.taker.role)
      ∧ (Taking 3 (request 3 1 0) [] (asking (request 3 1 0) (joined .idle [])) ∧ (joined .idle []).engine.role = .idle)
      ∧ (Taking 3 (request 3 2 0) [] (asking (request 3 2 0) (joined .idle []))
        ∧ supplyTestFails (asking (request 3 2 0) (joined .idle [])) = false) := by unfold Taking; decide

/-- Station 5 in a drain that a SET_ROLE with tag 9 waits for. -/
def draining (role : Role) (table : List Record) : State :=
  { joined role table with host := { (joined role table).host with long := some ⟨.setRole, 9⟩, reserved := 1 } }

theorem witness_RoleDrains :
    (Taking 3 (request 3 2 0) [] (asking (request 3 2 0) (joined .taker [take 2 1 80 0]))
        ∧ Target.ofCode (request 3 2 0).arg0.toNat = some .supplier ∧ (joined .taker []).engine.role = .taker
        ∧ supplyTestFails (asking (request 3 2 0) (joined .taker [take 2 1 80 0])) = false)
      ∧ (Taking 3 (request 3 0 0) [] (asking (request 3 0 0) (joined .supplier [supply 1 2 80 0]))
        ∧ Target.ofCode (request 3 0 0).arg0.toNat = some .idle ∧ (joined .supplier []).engine.role = .supplier)
      ∧ (Taking 3 (request 3 1 0) []
          (asking (request 3 1 0) (draining (.drainingTake .idle (.setRole 9)) [take 2 1 80 0]))
        ∧ Target.ofCode (request 3 1 0).arg0.toNat = some .taker
        ∧ (draining (.drainingTake .idle (.setRole 9)) []).host.long = some ⟨.setRole, 9⟩)
      ∧ (Taking 3 (request 3 0 0) []
          (asking (request 3 0 0) (draining (.drainingSupply .taker (.setRole 9)) [supply 1 2 80 0]))
        ∧ (draining (.drainingSupply .taker (.setRole 9)) []).engine.role = .drainingSupply .taker (.setRole 9)) := by
  unfold Taking; decide

theorem witness_RoleDrains_tables :
    TablesOrdered (asking (request 3 2 0) (joined .taker [take 2 1 80 0]))
      ∧ TablesOrdered (asking (request 3 0 0) (joined .supplier [supply 1 2 80 0])) := by
  unfold TablesOrdered PeersOrdered; decide

/-- Drains with a record of their side, with none and a supply that is there or absent, and one that serves leaving. -/
theorem witness_RoleDrains_ends :
    let stays := draining (.drainingSupply .taker (.setRole 9)) [supply 1 2 80 0]
    let ends := draining (.drainingTake .supplier (.setRole 9)) []
    let fails := { ends with engine := { ends.engine with supply := false } }
    let leaves := { joined (.drainingTake .idle .leaving) [] with
      link := { Link.initial with normal := [⟨0, .declare false, 0⟩, directed (.release 2 1)] } }
    let alone := { leaves with link := { Link.initial with normal := [directed (.release 2 1)] } }
    (stays.control.station.speaks = true ∧ (settle false stays stays).engine.table.any Record.isSupply = true)
      ∧ ((settle false ends ends).engine.table = [] ∧ supplyTestFails ends = false
        ∧ ends.host.long = some ⟨.setRole, 9⟩ ∧ (settle false ends ends).host.results = [⟨9, 3, .done, []⟩])
      ∧ (supplyTestFails fails = true ∧ (settle false fails fails).host.results = [⟨9, 3, .refusedState, []⟩])
      ∧ (finalAbout leaves = false ∧ leaves.engine.role = .drainingTake .idle .leaving
        ∧ (settle false leaves leaves).engine.table = []
        ∧ leaves.link.normal = [] ++ ⟨0, .declare false, 0⟩ :: [directed (.release 2 1)]
        ∧ OutFrame.isDeclare ⟨0, .declare false, 0⟩ = true)
      ∧ (finalAbout alone = false ∧ (settle false alone alone).engine.table = []
        ∧ alone.link.normal.any OutFrame.isDeclare = false ∧ alone.engine.declareDue = false
        ∧ alone.link.normal.length < 12
        ∧ (settle false alone alone).link.normal.map OutFrame.body = [.fixed (.release 2 1), .declare true]) := by decide

theorem witness_LeaveAndRejoin :
    (Taking 4 (request 4 0 0) [] (asking (request 4 0 0) (joined .idle [])) ∧ (joined .idle []).engine.role = .idle)
      ∧ (Taking 4 (request 4 0 0) [] (asking (request 4 0 0) (joined .taker [take 2 1 80 0]))
        ∧ (joined .taker []).engine.role = .taker)
      ∧ (Taking 4 (request 4 0 0) [] (asking (request 4 0 0) (joined .supplier [supply 1 2 80 0]))
        ∧ (joined .supplier []).engine.role = .supplier)
      ∧ (Taking 4 (request 4 0 0) []
          (asking (request 4 0 0) (draining (.drainingTake .supplier (.setRole 9)) [take 2 1 80 0]))
        ∧ (draining (.drainingTake .supplier (.setRole 9)) []).host.long = some ⟨.setRole, 9⟩)
      ∧ (Taking 5 (request 5 0 0) [] (asking (request 5 0 0) (base .offline)) ∧ (base .offline).control.station = .offline)
      ∧ (Taking 4 (request 4 0 0) [] (asking (request 4 0 0) (listening (some ⟨.rejoin, 7⟩)))
        ∧ (listening (some ⟨.rejoin, 7⟩)).host.long = some ⟨.rejoin, 7⟩) := by unfold Taking; decide

theorem witness_LeaveAndRejoin_tables :
    TablesOrdered (asking (request 4 0 0) (joined .taker [take 2 1 80 0]))
      ∧ TablesOrdered (asking (request 4 0 0) (joined .supplier [supply 1 2 80 0])) := by
  unfold TablesOrdered PeersOrdered; decide

theorem witness_OtherRequestsDone :
    let tripped := { base .joined with path := { State.reset.path with state := .tripped } }
    (Taking 6 (request 6 0 0) [] (asking (request 6 0 0) tripped) ∧ tripped.path.state = .tripped)
      ∧ (Taking 7 (request 7 0 0) [] (asking (request 7 0 0) (base .joined)) ∧ (base .joined).engine.supply = true)
      ∧ Taking 8 (request 8 0 0) [] (asking (request 8 0 0) (base .configFault))
      ∧ Taking 9 (request 9 0 0) [] (asking (request 9 0 0) working) := by unfold Taking; decide

/-- With a Result Queue that is full. -/
theorem witness_RestartResets :
    let s := queued [request 10 0 0] (List.replicate 4 result)
    s.control.resetHeld = false ∧ s.control.station ≠ .loading ∧ s.host.requests = request 10 0 0 :: []
      ∧ (request 10 0 0).kind.toNat = 10 := by decide

/-- A DECLARE of station 2 with some fields changed. -/
def changed (leaving : Bool) (incarnation : Byte) (period : Nat) : Declare :=
  { declared with leaving := leaving, incarnation := incarnation, period := period }

/-- A period of 200 is the largest in range, 201 is not; peer 2 is known to a joined station by incarnation 140. -/
theorem witness_DeclareReceived :
    let s := joined .taker []
    (Receiving (whole (.declare (changed false 140 201))) (frame (.declare (changed false 140 201))) s
        ∧ (changed false 140 201).inRange = false)
      ∧ (Receiving (whole (.declare (changed true 140 200))) (frame (.declare (changed true 140 200))) (base .listening)
        ∧ (changed true 140 200).inRange = true ∧ findPeer (base .listening) 2 = none)
      ∧ (Receiving (whole (.declare (changed false 140 10))) (frame (.declare (changed false 140 10))) (base .listening)
        ∧ (changed false 140 10).inRange = true)
      ∧ (Receiving (whole (.declare (changed false 140 200))) (frame (.declare (changed false 140 200))) s
        ∧ findPeer s 2 = some (peer 2 0) ∧ (peer 2 0).incarnation = (changed false 140 200).incarnation)
      ∧ (Receiving (whole (.declare (changed true 140 200))) (frame (.declare (changed true 140 200))) s
        ∧ (changed true 140 200).leaving = true)
      ∧ (Receiving (whole (.declare (changed false 141 200))) (frame (.declare (changed false 141 200))) s
        ∧ (peer 2 0).incarnation ≠ (changed false 141 200).incarnation) := by unfold Receiving; decide

/-- Station 5 in JOINED with frames in its inbound queue. -/
def holding (n : Nat) : State :=
  { joined .taker [] with link := { Link.initial with
    inbound := List.replicate n (frame (.hold 1 50)), idleSince := some 2000 } }

/-- The inbound queue has 8 places. -/
theorem witness_AlertReceived :
    (Receiving (whole (.alert 4580)) (frame (.alert 4580)) (holding 7) ∧ (holding 7).link.inbound.length < 8
        ∧ (holding 7).control.station.speaks = true)
      ∧ (Receiving (whole (.alert 0)) (frame (.alert 0)) (holding 8) ∧ 8 ≤ (holding 8).link.inbound.length)
      ∧ (Receiving (whole (.alert 6000)) (frame (.alert 6000)) (base .listening)
        ∧ (base .listening).control.station.speaks = false) := by unfold Receiving; decide


theorem witness_DirectedFrameReceived :
    let again := { holding 7 with peers := [{ peer 2 0 with lastIn := some 3 }] }
    (Receiving (whole (.hold 1 50)) (frame (.hold 1 50)) (holding 7) ∧ (frame (.hold 1 50)).body.isDirected = true
        ∧ (frame (.hold 1 50)).dst = ownAddress (holding 7) ∧ findPeer (holding 7) 2 = some (peer 2 0)
        ∧ (holding 7).link.inbound.length < 8 ∧ (peer 2 0).lastIn ≠ some (frame (.hold 1 50)).seq)
      ∧ (Receiving (whole (.hold 1 50)) (frame (.hold 1 50)) again
        ∧ findPeer again 2 = some { peer 2 0 with lastIn := some 3 })
      ∧ (Receiving (whole (.hold 1 50)) (frame (.hold 1 50)) (holding 8) ∧ 8 ≤ (holding 8).link.inbound.length)
      ∧ (Receiving ⟨(Frame.mk 9 2 3 (.hold 1 50)).bytes, 0, .idle⟩ ⟨9, 2, 3, .hold 1 50⟩ (holding 7)
        ∧ (9 : Nat) ≠ ownAddress (holding 7))
      ∧ Receiving (whole (.hold 1 50)) (frame (.hold 1 50)) (base .listening)
      ∧ (Receiving (whole (.hold 1 50)) (frame (.hold 1 50)) { holding 7 with peers := [] }
        ∧ findPeer { holding 7 with peers := [] } 2 = none) := by unfold Receiving; decide

/-- The attempt of the ASK that `askingTwo` waits for began at 1900 and ends 104 bit times on; the ACK ends 56 + 14 bit
times after that, the last moment at which its first bit lay in the window. -/
def askAttempt : Current := attempt ⟨2, .fixed (.ask 1 80 4 0), 9⟩ (.ask 1 80 4 0)

/-- The ALERT's 9 bytes, begun at the last bit time of the window. -/
theorem witness_AlertReceived_window :
    let s := sending askAttempt (askingTwo (.queued 9))
    (s.control.resetHeld = false ∧ s.control.station.hears = true
        ∧ classify (whole (.alert 4580)) = .valid (frame (.alert 4580)) ∧ (frame (.alert 4580)).src ≠ ownAddress s
        ∧ s.link.ackOut = none)
      ∧ Attempting askAttempt 1900 s ∧ askAttempt.frame.dst ≠ 0 ∧ s.control.station.speaks = true
      ∧ s.link.inbound.length < 8
      ∧ max (advance 90 s).now (askAttempt.txEnd 1900 + (whole (.alert 4580)).time)
        = askAttempt.txEnd 1900 + 14 + (whole (.alert 4580)).time := by unfold Attempting; decide

/-- The ACK that the attempt of an ASK waits for. -/
def acked : Reception := ⟨(Frame.mk 5 2 1 .ack).bytes, 0, .idle⟩

theorem witness_AckReportsAskSent :
    let s := sending askAttempt (askingTwo (.queued 9))
    s.control.resetHeld = false ∧ s.control.station.hears = true ∧ s.link.ackOut = none
      ∧ classify acked = .valid ⟨5, 2, 1, .ack⟩ ∧ 2 ≠ ownAddress s ∧ 5 = ownAddress s
      ∧ Attempting askAttempt 1900 s ∧ s.control.station.speaks = true
      ∧ askAttempt.frame.body = .fixed (.ask 1 80 4 0) ∧ askAttempt.frame.dst = 2 ∧ askAttempt.seq = 1
      ∧ askAttempt.txEnd 1900 + acked.time ≤ (advance 60 s).now
      ∧ (advance 74 s).now = askAttempt.txEnd 1900 + 14 + acked.time
      ∧ askOfFrame s askAttempt.frame.ref = some (pendingAsk (.queued 9))
      ∧ askOfFrame (sending askAttempt (askingTwo (.asked 2500))) askAttempt.frame.ref = none := by
  unfold Attempting; decide

/-- No attempt, a broadcast attempt, and an ACK that began a bit time after the window; then ACKs in the window for another
station, from another source and with another sequence. -/
theorem witness_AckReportsAskSent_others :
    let s := sending askAttempt (askingTwo (.queued 9))
    let alert := attempt ⟨0, .fixed (.alert 4580), 0⟩ (.alert 4580)
    (attemptOf (joined .taker []) = none ∧ (joined .taker []).link.ackOut = none)
      ∧ (Attempting alert 1900 (sending alert (joined .taker [])) ∧ alert.frame.dst = 0)
      ∧ askAttempt.txEnd 1900 + 14 + acked.time < max (advance 75 s).now (askAttempt.txEnd 1900 + acked.time)
      ∧ (classify ⟨(Frame.mk 9 2 1 .ack).bytes, 0, .idle⟩ = .valid ⟨9, 2, 1, .ack⟩ ∧ 9 ≠ ownAddress s)
      ∧ (classify ⟨(Frame.mk 5 7 1 .ack).bytes, 0, .idle⟩ = .valid ⟨5, 7, 1, .ack⟩ ∧ 7 ≠ askAttempt.frame.dst)
      ∧ (classify ⟨(Frame.mk 5 2 2 .ack).bytes, 0, .idle⟩ = .valid ⟨5, 2, 2, .ack⟩ ∧ 2 ≠ askAttempt.seq) := by unfold Attempting; decide

/-- GRANTs of contract 1 for its record PROVISIONAL, RAISING from 40, or ACTIVE; another kind of frame; an ask that refers to
its frame. -/
theorem witness_AckReportsAskSent_reports :
    let grant := directed (.grant 1 1 80 1)
    let s (x : RecordState) : State :=
      sending (attempt grant (.grant 1 1 80 1)) (joined .supplier [{ supply 1 2 80 1 with state := x }])
    Attempting (attempt grant (.grant 1 1 80 1)) 1900 (s .provisional) ∧ (s .provisional).control.station.speaks = true
      ∧ findSupply (s .provisional) 1 = some { supply 1 2 80 1 with state := .provisional }
      ∧ ({ supply 1 2 80 1 with state := .provisional } : Record).isOpenGrant = true
      ∧ (findSupply (s (.raising 40 0)) 1 = some { supply 1 2 80 1 with state := .raising 40 0 } ∧ (40 : Nat) ≠ 80)
      ∧ (findSupply (s .active) 1 = some (supply 1 2 80 1) ∧ (supply 1 2 80 1).isOpenGrant = false)
      ∧ (4 ≤ (Payload.hold 1 50).kind ∧ (Payload.release 2 1).kind ≤ 9)
      ∧ findAsk (askingTwo (.queued 9)) 2 = some (pendingAsk (.queued 9)) := by unfold Attempting; decide

/-- LEAVING with a broadcast in its eighth attempt, which began now. -/
def lastAttempt (f : OutFrame) (p : Payload) : Current :=
  { attempt f p with failures := 7, attempts := 8, phase := .attempting 2000 }

/-- Entry to OFFLINE with two entries, unpowered with a start allowance of 2, by a TRIPPED path: PEER_LOST, and the path
RAMPING (R118, R153). -/
theorem test_collision_enters_offline :
    let final := lastAttempt ⟨0, .declare true, 0⟩ (.declare declared)
    let s : State := { joined .idle [] with
      control := { (base .leaving).control with unpowered := true }
      link := { Link.initial with current := some final }
      path := { State.reset.path with state := .tripped }
      host := { (base .leaving).host with long := some ⟨.leave, 7⟩ } }
    leads (.collision 5) s fun t => decide (t.control.station = .offline ∧ t.peers = [] ∧ hasEvent .peerLost t = true
      ∧ t.path.state = .ramping ∧ t.path.limit = 2) := by decide

/-- Broadcasts given up, as the reports and as the ends of an eighth attempt by a collision. -/
theorem witness_broadcast_given_up :
    let s (c : Current) : State := { base .leaving with
      link := { Link.initial with current := some c }
      host := { (base .leaving).host with long := some ⟨.leave, 7⟩ } }
    let final := lastAttempt ⟨0, .declare true, 0⟩ (.declare declared)
    let ordinary := lastAttempt ⟨0, .declare false, 0⟩ (.declare declared)
    let alert := lastAttempt ⟨0, .fixed (.alert 4580), 0⟩ (.alert 4580)
    (s final).control.station.speaks = true ∧ (s final).host.long = some ⟨.leave, 7⟩ ∧ (s final).link.ackOut = none
      ∧ (Attempting final 2000 (s final) ∧ (s final).now + 5 ≤ final.txEnd 2000)
      ∧ (Attempting ordinary 2000 (s ordinary) ∧ (s ordinary).now + 5 ≤ ordinary.txEnd 2000)
      ∧ (Attempting alert 2000 (s alert) ∧ (s alert).now + 72 = alert.txEnd 2000)
      ∧ 7 ≤ final.failures ∧ final.frame.dst = 0 := by unfold Attempting; decide

theorem witness_DamagedReceptions :
    let s := sending { askAttempt with failures := 6 } (askingTwo (.queued 9))
    (joined .taker []).control.resetHeld = false ∧ (joined .taker []).control.station.hears = true
      ∧ (joined .taker []).link.ackOut = none ∧ attemptOf (joined .taker []) = none
      ∧ classify ⟨[0xB5], 0, .idle⟩ = .malformed ∧ classify ⟨[], 7, .contention⟩ = .fragment
      ∧ Attempting { askAttempt with failures := 6 } 1900 s ∧ 6 + 1 < 8 ∧ s.link.urgent = []
      ∧ max (advance 26 s).now (askAttempt.txEnd 1900 + (⟨[0xB5], 0, .idle⟩ : Reception).time)
        ≤ askAttempt.txEnd 1900 + 14 + (⟨[0xB5], 0, .idle⟩ : Reception).time
      ∧ max (advance 25 s).now (askAttempt.txEnd 1900 + (⟨[], 7, .contention⟩ : Reception).time)
        = askAttempt.txEnd 1900 + 14 + (⟨[], 7, .contention⟩ : Reception).time := by
  unfold Attempting; decide

/-- A frame of any kind with source 5, here an ACK, met in LISTENING, JOINED and LEAVING. -/
theorem witness_AddressConflictStops :
    classify ⟨(Frame.mk 9 5 0 .ack).bytes, 0, .idle⟩ = .valid ⟨9, 5, 0, .ack⟩ ∧ 5 = ownAddress (base .listening)
      ∧ (base .listening).control.station.hears = true ∧ working.control.station.hears = true
      ∧ (base .leaving).control.station.hears = true ∧ working.control.resetHeld = false
      ∧ ownAddress working = 5 := by decide

/-- The ACK's 56 bit times and the attempt's 104 still run at the last moment taken. -/
theorem witness_AckAndCollision :
    let due := { joined .taker [] with link := { Link.initial with ackDue := some ⟨2, 3, 2006⟩ } }
    let driven := { joined .taker [] with link := { Link.initial with ackOut := some ⟨2, 3, 2000⟩ } }
    let s := sending { askAttempt with failures := 6 } (askingTwo (.queued 9))
    (due.link.ackDue = some ⟨2, 3, 2006⟩ ∧ due.link.ackOut = none ∧ due.control.resetHeld = false)
      ∧ (driven.link.ackOut = some ⟨2, 3, 2000⟩ ∧ driven.now + 55 < 2000 + 56)
      ∧ (Attempting { askAttempt with failures := 6 } 1900 s ∧ s.link.ackOut = none
        ∧ s.now + 4 ≤ askAttempt.txEnd 1900 ∧ s.link.urgent = []) := by unfold Attempting; decide

/-- The link with what it waits to send. -/
def waiting (urgent normal : List OutFrame) (current : Option Current) : State :=
  { joined .taker [] with link := { Link.initial with
    urgent := urgent, normal := normal, current := current, idleSince := some 2000 } }

theorem witness_AttemptBegins :
    let hold := directed (.hold 1 50)
    (waiting [] [hold] none).control.resetHeld = false ∧ (waiting [] [hold] none).control.station.speaks = true
      ∧ (waiting [] [hold] none).link.ackOut = none ∧ (waiting [] [hold] none).link.idleSince = some 2000
      ∧ ((waiting [] [hold] none).link.normal = hold :: [] ∧ hold.dst ≠ 0 ∧ hold.body = .fixed (.hold 1 50)
        ∧ findPeer (waiting [] [hold] none) 2 = some (peer 2 0) ∧ (waiting [] [hold] none).link.current = none
        ∧ (waiting [] [hold] none).link.urgent = [] ∧ (waiting [] [hold] none).link.preempted = none)
      ∧ (waiting [] [⟨0, .declare true, 0⟩, hold] none).link.normal = ⟨0, .declare true, 0⟩ :: [hold]
      ∧ (waiting [⟨0, .fixed (.alert 6000), 0⟩] [hold] none).link.urgent = ⟨0, .fixed (.alert 6000), 0⟩ :: []
      ∧ ((waiting [] [] (some ⟨hold, 1, 1, 1, .backoff, .hold 1 50⟩)).link.current
          = some ⟨hold, 1, 1, 1, .backoff, .hold 1 50⟩ ∧ hold.isUrgent = false)
      ∧ (waiting [] [] (some ⟨⟨0, .declare false, 0⟩, 0, 1, 1, .backoff, .declare declared⟩)).link.current
          = some ⟨⟨0, .declare false, 0⟩, 0, 1, 1, .backoff, .declare declared⟩
      ∧ (waiting [] [] (some ⟨⟨0, .fixed (.alert 0), 0⟩, 0, 1, 1, .backoff, .alert 0⟩)).link.current
          = some ⟨⟨0, .fixed (.alert 0), 0⟩, 0, 1, 1, .backoff, .alert 0⟩ ∧ (15 : Nat) ≤ 15 ∧ (7 : Nat) ≤ 7 := by decide

/-- The link with a pre-empted frame. -/
def preempted (c : Current) : State :=
  { joined .taker [] with link := { Link.initial with preempted := some c, idleSince := some 2000 } }

/-- A frame whose destination has no entry, and pre-empted frames. -/
theorem witness_AttemptBegins_others :
    let gone : OutFrame := ⟨9, .fixed (.hold 1 50), 0⟩
    let hold : Current := ⟨directed (.hold 1 50), 1, 1, 1, .backoff, .hold 1 50⟩
    let declare : Current := ⟨⟨0, .declare false, 0⟩, 0, 1, 1, .backoff, .declare declared⟩
    ((waiting [] [gone] none).link.normal = gone :: [] ∧ gone.dst ≠ 0 ∧ gone.body = .fixed (.hold 1 50)
        ∧ findPeer (waiting [] [gone] none) 9 = none)
      ∧ ((preempted hold).control.resetHeld = false ∧ (preempted hold).control.station.speaks = true
        ∧ (preempted hold).link.ackOut = none ∧ (preempted hold).link.idleSince = some 2000
        ∧ (preempted hold).link.current = none ∧ (preempted hold).link.urgent = []
        ∧ (preempted hold).link.preempted = some hold ∧ hold.frame.body = .fixed (.hold 1 50))
      ∧ ((preempted declare).link.preempted = some declare ∧ declare.frame.body = .declare false) := by decide

theorem witness_AttemptEnds :
    let declare := attempt ⟨0, .declare false, 0⟩ (.declare declared)
    let final := attempt ⟨0, .declare true, 0⟩ (.declare declared)
    let alert := attempt ⟨0, .fixed (.alert 4580), 0⟩ (.alert 4580)
    let leaving := { sending final (base .leaving) with host := { (base .leaving).host with
      long := some ⟨.leave, 7⟩, reserved := 1 } }
    Attempting declare 1900 (sending declare (joined .taker []))
      ∧ Attempting alert 1900 (sending alert (joined .taker []))
      ∧ (Attempting final 1900 leaving ∧ leaving.host.long = some ⟨.leave, 7⟩ ∧ leaving.link.ackOut = none)
      ∧ (Attempting { askAttempt with failures := 6 } 1900 (sending { askAttempt with failures := 6 } (joined .taker []))
        ∧ askAttempt.frame.dst ≠ 0 ∧ 6 + 1 < 8)
      ∧ (Attempting { askAttempt with failures := 7 } 1900 (sending { askAttempt with failures := 7 } (joined .taker []))
        ∧ 8 ≤ 7 + 1) := by unfold Attempting; decide

/-- The minimum is the whole of what is free, 300, and the whole of what the ceiling leaves a raise, 400 − 100. -/
theorem witness_AskGranted :
    let new := inbound (.ask 15 400 300 0) (joined .supplier [])
    let raise := inbound (.ask 1 300 300 1)
      { joined .supplier [supply 1 2 100 0] with
        engine := { (joined .supplier [supply 1 2 100 0]).engine with capacity := 400 } }
    (Consuming (frame (.ask 15 400 300 0)) [] new ∧ new.engine.role = .supplier ∧ ((300 : Nat) : Int) ≤ free new
        ∧ concernedRecord 2 0 new = none ∧ new.engine.table.length < 16)
      ∧ (Consuming (frame (.ask 1 300 300 1)) [] raise ∧ ((300 : Nat) : Int) ≤ free raise
        ∧ concernedRecord 2 1 raise = some (supply 1 2 100 0)
        ∧ findRecord 5 1 raise.engine.table = some (supply 1 2 100 0) ∧ (supply 1 2 100 0).state = .active
        ∧ 300 ≤ 400 - (supply 1 2 100 0).amount) := by unfold Consuming; decide

/-- An ASK of 4 against the table given. -/
def judged (id : Nat) (role : Role) (table : List Record) : State := inbound (.ask 1 4 4 id) (joined role table)

/-- A record whose GRANT is not resolved. -/
def granting (id taker amount : Nat) : Record := { supply id taker amount 0 with state := .provisional }

/-- Contract 1 with taker 2 in recall to 0. -/
def recalledToZero : Record := { supply 1 2 100 0 with state := .recalling 0 1 9999 }

theorem witness_AskNotGranted :
    let f := frame (.ask 1 4 4 1)
    let g := frame (.ask 1 4 4 0)
    (Consuming g [] (judged 0 .idle []) ∧ (judged 0 .idle []).engine.role.value ≠ .supplier
        ∧ (judged 0 .idle []).engine.role.value ≠ .drainingSupply)
      ∧ (Consuming g [] (judged 0 (.drainingSupply .idle .leaving) [])
        ∧ (judged 0 (.drainingSupply .idle .leaving) []).engine.role.value = .drainingSupply)
      ∧ (Consuming g [] (judged 0 .supplier (List.replicate 16 (supply 1 7 10 0)))
        ∧ concernedRecord 2 0 (judged 0 .supplier (List.replicate 16 (supply 1 7 10 0))) = none
        ∧ 16 ≤ (judged 0 .supplier (List.replicate 16 (supply 1 7 10 0))).engine.table.length)
      ∧ (Consuming f [] (judged 1 .supplier [granting 1 2 100])
        ∧ concernedRecord 2 1 (judged 1 .supplier [granting 1 2 100]) = some (granting 1 2 100)
        ∧ (granting 1 2 100).isOpenGrant = true) := by unfold Consuming; decide

theorem witness_AskNotGranted_budget :
    let f := frame (.ask 1 4 4 1)
    let g := frame (.ask 1 4 4 0)
    (Consuming f [] (judged 1 .supplier [recalledToZero])
        ∧ concernedRecord 2 1 (judged 1 .supplier [recalledToZero]) = some recalledToZero
        ∧ recalledToZero.isRecalling = true ∧ recalledToZero.isOpenGrant = false)
      ∧ (Consuming g [] (judged 0 .supplier [supply 1 7 297 0])
        ∧ concernedRecord 2 0 (judged 0 .supplier [supply 1 7 297 0]) = none
        ∧ (judged 0 .supplier [supply 1 7 297 0]).engine.table.length < 16
        ∧ free (judged 0 .supplier [supply 1 7 297 0]) < (4 : Nat))
      ∧ (Consuming f [] (judged 1 .supplier [supply 1 2 297 0])
        ∧ concernedRecord 2 1 (judged 1 .supplier [supply 1 2 297 0]) = some (supply 1 2 297 0)
        ∧ (supply 1 2 297 0).isOpenGrant = false ∧ (supply 1 2 297 0).isRecalling = false
        ∧ free (judged 1 .supplier [supply 1 2 297 0]) < (4 : Nat)) := by unfold Consuming; decide

theorem witness_GrantConsumed :
    let new := inbound (.grant 1 1 80 0) (askingTwo (.asked 2500))
    let raising : Ask := { pendingAsk (.asked 2500) with raised := some 1 }
    let raise := inbound (.grant 1 1 150 1) { joined .taker [take 2 1 80 0] with
      engine := { (joined .taker [take 2 1 80 0]).engine with asks := [raising] } }
    let late := inbound (.grant 2 1 80 0) (joined .taker [take 2 1 80 0])
    (Consuming (frame (.grant 1 1 80 0)) [] new ∧ matchingAsk new 2 1 = some (pendingAsk (.asked 2500))
        ∧ findAsk new 2 = some (pendingAsk (.asked 2500)) ∧ (pendingAsk (.asked 2500)).raised = none)
      ∧ (Consuming (frame (.grant 1 1 150 1)) [] raise ∧ matchingAsk raise 2 1 = some raising
        ∧ findAsk raise 2 = some raising ∧ raising.raised = some 1 ∧ findTake raise 2 1 = some (take 2 1 80 0)
        ∧ newer 1 (take 2 1 80 0).revision = true ∧ (take 2 1 80 0).amount ≠ 150)
      ∧ (Consuming (frame (.grant 2 7 80 0)) [] (inbound (.grant 2 7 80 0) (joined .taker []))
        ∧ matchingAsk (inbound (.grant 2 7 80 0) (joined .taker [])) 2 2 = none
        ∧ findTake (inbound (.grant 2 7 80 0) (joined .taker [])) 2 7 = none)
      ∧ (Consuming (frame (.grant 2 1 80 0)) [] late ∧ matchingAsk late 2 2 = none
        ∧ findTake late 2 1 = some (take 2 1 80 0) ∧ (take 2 1 80 0).state = .active) := by unfold Consuming; decide

/-- A raise answered at a revision that is not newer, or for another contract; a late GRANT of a CLOSING contract. -/
theorem witness_GrantConsumed_others :
    let raising : Ask := { pendingAsk (.asked 2500) with raised := some 1 }
    let raise (id : Nat) : State := inbound (.grant 1 id 150 0) { joined .taker [take 2 1 80 0] with
      engine := { (joined .taker [take 2 1 80 0]).engine with asks := [raising] } }
    let closing : Record := { take 2 1 80 0 with state := .closing }
    let late := inbound (.grant 2 1 80 0) (joined .taker [closing])
    (Consuming (frame (.grant 1 1 150 0)) [] (raise 1) ∧ matchingAsk (raise 1) 2 1 = some raising
        ∧ findAsk (raise 1) 2 = some raising ∧ findTake (raise 1) 2 1 = some (take 2 1 80 0)
        ∧ newer 0 (take 2 1 80 0).revision = false)
      ∧ (Consuming (frame (.grant 1 2 150 0)) [] (raise 2) ∧ matchingAsk (raise 2) 2 1 = some raising
        ∧ findAsk (raise 2) 2 = some raising ∧ raising.raised = some 1 ∧ (2 : Nat) ≠ 1)
      ∧ (Consuming (frame (.grant 2 1 80 0)) [] late ∧ matchingAsk late 2 2 = none ∧ findTake late 2 1 = some closing
        ∧ closing.state ≠ .active) := by unfold Consuming; decide

theorem witness_HoldConsumed :
    let ask (n : Nat) : Ask := { pendingAsk (.asked 2500) with holds := n }
    let s (n : Nat) : State := inbound (.hold 1 500)
      { joined .taker [] with engine := { (joined .taker []).engine with asks := [ask n] } }
    (Consuming (frame (.hold 1 500)) [] (s 2) ∧ matchingAsk (s 2) 2 1 = some (ask 2) ∧ findAsk (s 2) 2 = some (ask 2)
        ∧ (ask 2).holds < 3)
      ∧ (Consuming (frame (.hold 1 500)) [] (s 3) ∧ matchingAsk (s 3) 2 1 = some (ask 3) ∧ 3 ≤ (ask 3).holds)
      ∧ matchingAsk (inbound (.hold 1 500) (joined .taker [])) 2 1 = none
      ∧ Consuming (frame (.hold 1 500)) [] (inbound (.hold 1 500) (joined .taker [])) := by unfold Consuming; decide

theorem witness_DeclineEndsAsk :
    let s := inbound (.decline 1 4) (askingTwo (.queued 9))
    (Consuming (frame (.decline 1 4)) [] s ∧ matchingAsk s 2 1 = some (pendingAsk (.queued 9))
        ∧ findAsk s 2 = some (pendingAsk (.queued 9)))
      ∧ Consuming (frame (.decline 1 1)) [] (inbound (.decline 1 1) (joined .taker []))
      ∧ matchingAsk (inbound (.decline 1 1) (joined .taker [])) 2 1 = none := by unfold Consuming; decide

/-- A TRIM to a at revision v of contract 1, against the table given. -/
def reduced (a : Nat) (v : Revision) (table : List Record) : State := inbound (.trim 1 a v) (joined .supplier table)

/-- Contract 1 with taker 2 in recall to 200 at revision 3. -/
def recalling (amount : Nat) : Record := { supply 1 2 amount 2 with state := .recalling 200 3 9999 }

theorem witness_ReductionConsumed :
    let closing : Record := { supply 1 2 300 2 with state := .closing }
    Consuming (frame (.trim 1 0 0)) [] (reduced 0 0 []) ∧ namedSupply 2 1 (reduced 0 0 []) = none
      ∧ (Consuming (frame (.yield 1 0 0)) [] (inbound (.yield 1 0 0) (joined .supplier []))
        ∧ namedSupply 2 1 (inbound (.yield 1 0 0) (joined .supplier [])) = none)
      ∧ (Consuming (frame (.trim 1 1 0)) [] (reduced 1 0 []) ∧ namedSupply 2 1 (reduced 1 0 []) = none)
      ∧ (Consuming (frame (.trim 1 1 3)) [] (reduced 1 3 [closing])
        ∧ namedSupply 2 1 (reduced 1 3 [closing]) = some closing ∧ closing.isClosing = true)
      ∧ (Consuming (frame (.trim 1 299 2)) [] (reduced 299 2 [supply 1 2 300 2])
        ∧ namedSupply 2 1 (reduced 299 2 [supply 1 2 300 2]) = some (supply 1 2 300 2)
        ∧ (supply 1 2 300 2).isClosing = false ∧ (supply 1 2 300 2).isRecalling = false
        ∧ newerOrEqual 2 (supply 1 2 300 2).revision = true)
      ∧ Consuming (frame (.trim 1 0 2)) [] (reduced 0 2 [supply 1 2 300 2])
      ∧ (Consuming (frame (.trim 1 300 3)) [] (reduced 300 3 [supply 1 2 300 2])
        ∧ newerOrEqual 1 (supply 1 2 300 2).revision = false) := by unfold Consuming; decide

theorem witness_ReductionConsumed_recall :
    let ok (a : Nat) (v : Revision) (r : Record) : Bool := newerOrEqual v 3 || (v == r.revision && decide (a ≤ 200))
    (Consuming (frame (.trim 1 201 2)) [] (reduced 201 2 [recalling 300])
        ∧ namedSupply 2 1 (reduced 201 2 [recalling 300]) = some (recalling 300)
        ∧ (recalling 300).state = .recalling 200 3 9999 ∧ ok 201 2 (recalling 300) = false)
      ∧ (Consuming (frame (.trim 1 0 3)) [] (reduced 0 3 [recalling 300]) ∧ ok 0 3 (recalling 300) = true)
      ∧ (Consuming (frame (.trim 1 200 2)) [] (reduced 200 2 [recalling 300]) ∧ ok 200 2 (recalling 300) = true
        ∧ 200 < (recalling 300).amount)
      ∧ (Consuming (frame (.trim 1 300 3)) [] (reduced 300 3 [recalling 300]) ∧ ok 300 3 (recalling 300) = true
        ∧ (recalling 300).amount ≤ 300) := by unfold Consuming; decide

/-- A RECALL of (2, 1) against the record given. -/
def recalled (target : Nat) (v : Revision) (table : List Record) : State :=
  inbound (.recall 1 target v) (joined .taker table)

theorem witness_RecallConsumed :
    let closing : Record := { take 2 1 300 2 with state := .closing }
    (Consuming (frame (.recall 1 0 3)) [] (recalled 0 3 []) ∧ findTake (recalled 0 3 []) 2 1 = none)
      ∧ (Consuming (frame (.recall 1 0 3)) [] (recalled 0 3 [closing])
        ∧ findTake (recalled 0 3 [closing]) 2 1 = some closing ∧ closing.state ≠ .active)
      ∧ (Consuming (frame (.recall 1 200 2)) [] (recalled 200 2 [take 2 1 300 2])
        ∧ findTake (recalled 200 2 [take 2 1 300 2]) 2 1 = some (take 2 1 300 2)
        ∧ (take 2 1 300 2).state = .active ∧ newerOrEqual 2 (take 2 1 300 2).revision = true)
      ∧ Consuming (frame (.recall 1 0 129)) [] (recalled 0 129 [take 2 1 300 2])
      ∧ newerOrEqual 129 (take 2 1 300 2).revision = true
      ∧ (Consuming (frame (.recall 1 0 130)) [] (recalled 0 130 [take 2 1 300 2])
        ∧ newerOrEqual 130 (take 2 1 300 2).revision = false) := by unfold Consuming; decide

theorem witness_RecallConsumed_lower : TablesSound (recalled 200 2 [take 2 1 300 2]) := by
  unfold TablesSound TablesOrdered PeersOrdered; decide

theorem witness_RecallConsumed_end : TablesSound (recalled 0 129 [take 2 1 300 2]) := by
  unfold TablesSound TablesOrdered PeersOrdered; decide

theorem witness_RecallConsumed_as_it_stands : TablesSound (recalled 0 130 [take 2 1 300 2]) := by
  unfold TablesSound TablesOrdered PeersOrdered; decide

/-- A RECALL with target 0 of a contract that a raise names. -/
theorem witness_RecallConsumed_raise :
    let raise : Ask := { pendingAsk (.asked 9999) with raised := some 1 }
    let s := recalled 0 3 [take 2 1 300 2]
    let s : State := { s with engine := { s.engine with asks := [raise] } }
    TablesSound s ∧ findTake s 2 1 = some (take 2 1 300 2) ∧ raiseNames s (take 2 1 300 2) = true
      ∧ findAsk s 2 = some raise := by
  unfold TablesSound TablesOrdered PeersOrdered; decide

/-- A RELEASE by key, against the role and table given. -/
def released (supplier id : Nat) (role : Role) (table : List Record) : State :=
  inbound (.release supplier id) (joined role table)

theorem witness_ReleaseConsumed :
    let raising : Ask := { pendingAsk (.asked 2500) with raised := some 1 }
    let raise := { released 2 1 .taker [take 2 1 80 0] with
      engine := { (released 2 1 .taker [take 2 1 80 0]).engine with asks := [raising] } }
    (Consuming (frame (.release 5 1)) [] (released 5 1 .supplier [supply 1 2 80 0])
        ∧ 2 ≠ ownAddress (released 5 1 .supplier [supply 1 2 80 0])
        ∧ 5 = ownAddress (released 5 1 .supplier [supply 1 2 80 0])
        ∧ namedSupply 2 1 (released 5 1 .supplier [supply 1 2 80 0]) = some (supply 1 2 80 0))
      ∧ (Consuming (frame (.release 5 1)) [] (released 5 1 .supplier [supply 1 7 80 0])
        ∧ namedSupply 2 1 (released 5 1 .supplier [supply 1 7 80 0]) = none)
      ∧ (Consuming (frame (.release 2 1)) [] (released 2 1 .taker [take 2 1 80 0])
        ∧ findTake (released 2 1 .taker [take 2 1 80 0]) 2 1 = some (take 2 1 80 0)
        ∧ raiseNames (released 2 1 .taker [take 2 1 80 0]) (take 2 1 80 0) = false)
      ∧ (Consuming (frame (.release 2 1)) [] raise ∧ findTake raise 2 1 = some (take 2 1 80 0)
        ∧ raiseNames raise (take 2 1 80 0) = true ∧ findAsk raise 2 = some raising)
      ∧ (Consuming (frame (.release 2 9)) [] (released 2 9 .taker [take 2 1 80 0])
        ∧ findTake (released 2 9 .taker [take 2 1 80 0]) 2 9 = none)
      ∧ (Consuming (frame (.release 7 1)) [] (released 7 1 .taker [take 7 1 80 0]) ∧ (7 : Nat) ≠ 2
        ∧ 7 ≠ ownAddress (released 7 1 .taker [take 7 1 80 0])) := by unfold Consuming; decide

/-- Station 2 as TAKER lists nine contracts of station 5, the last one unknown to it. -/
def listing : Declare :=
  { declared with
    role := 1
    summaries := [⟨5, 4, 40, 2⟩, ⟨5, 5, 50, 2⟩, ⟨5, 6, 60, 2⟩, ⟨5, 7, 20, 1⟩, ⟨5, 9, 30, 2⟩, ⟨5, 10, 20, 0⟩, ⟨5, 12, 0, 2⟩,
      ⟨5, 13, 45, 1⟩, ⟨5, 11, 40, 0⟩] }

/-- Station 5's table: contracts 1 and 2 are left out, 3 is CLOSING, 4 to 7, 9, 10, 12 and 13 are listed, 8 is with
station 7, 14 is granted and not listed. -/
def examined : List Record :=
  [supply 1 2 10 0, { supply 2 2 10 0 with miss := 1 }, { supply 3 2 10 0 with state := .closing },
    supply 4 2 50 1, supply 5 2 50 1, supply 6 2 50 3, { supply 7 2 30 1 with state := .recalling 10 2 9999 },
    supply 8 7 10 0, { supply 9 2 30 1 with state := .recalling 10 2 9999 },
    { supply 10 2 20 0 with state := .provisional }, { supply 12 2 30 1 with state := .recalling 0 2 9999 },
    supply 13 2 45 1, { supply 14 2 10 0 with state := .provisional }]

theorem witness_DeclareConsumed :
    let s := inbound (.declare listing) (joined .supplier examined)
    TablesOrdered s ∧ s.control.resetHeld = false ∧ s.control.station.speaks = true ∧ normalRoom s = true
      ∧ s.link.inbound = frame (.declare listing) :: [] ∧ findPeer s 2 = some (peer 2 0)
      ∧ (peer 2 0).incarnation = listing.incarnation := by
  unfold TablesOrdered PeersOrdered; decide

/-- The reconciliation leaves of station 5's table what R69 and R94 to R100 give, record by record, and the unknown contract is
answered with RELEASE for its key. -/
theorem test_consumeDeclare_records :
    let t := reconcile 2 listing (joined .supplier examined)
    t.engine.table
        = [{ supply 1 2 10 0 with miss := 1 }, { supply 3 2 10 0 with state := .closing }, supply 4 2 40 2, supply 5 2 50 2,
          supply 6 2 50 3, { supply 7 2 30 1 with state := .recalling 10 2 9999 }, supply 8 7 10 0, supply 9 2 30 2,
          supply 10 2 20 0, supply 13 2 45 1, { supply 14 2 10 0 with state := .provisional }]
      ∧ t.link.normal.map OutFrame.body = [.fixed (.release 5 11)] := by decide

/-- Station 5 as TAKER raises (2, 1), which station 2 lists at a newer revision with more; (2, 1) alone is left out of the
second DECLARE, at its second miss. -/
theorem witness_DeclareConsumed_raise :
    let raising : Ask := { pendingAsk (.asked 2500) with raised := some 1 }
    let more : Declare := { declared with summaries := [⟨5, 1, 90, 1⟩] }
    let s (d : Declare) (miss : Nat) : State := inbound (.declare d) { joined .taker [{ take 2 1 80 0 with miss := miss }] with
      engine := { (joined .taker [{ take 2 1 80 0 with miss := miss }]).engine with asks := [raising] } }
    (TablesOrdered (s more 0) ∧ summaryFor 2 more (s more 0) (take 2 1 80 0) = some ⟨5, 1, 90, 1⟩
        ∧ newer 1 (take 2 1 80 0).revision = true ∧ raiseNames (s more 0) (take 2 1 80 0) = true)
      ∧ (TablesOrdered (s declared 1) ∧ raiseNames (s declared 1) { take 2 1 80 0 with miss := 1 } = true
        ∧ raising.supplier = 2) := by unfold TablesOrdered PeersOrdered; decide

theorem witness_DeclareConsumed_records :
    let s := inbound (.declare listing) (joined .supplier examined)
    let listed (r : Record) : Option Summary := (summaryFor 2 listing s r).filter fun x => !farApart x.revision r.revision
    supply 8 7 10 0 ∈ s.engine.table ∧ { supply 3 2 10 0 with state := .closing } ∈ s.engine.table
      ∧ (supply 1 2 10 0 ∈ s.engine.table ∧ listed (supply 1 2 10 0) = none)
      ∧ ({ supply 2 2 10 0 with miss := 1 } ∈ s.engine.table ∧ listed { supply 2 2 10 0 with miss := 1 } = none)
      ∧ (supply 4 2 50 1 ∈ s.engine.table ∧ listed (supply 4 2 50 1) = some ⟨5, 4, 40, 2⟩ ∧ newerOrEqual 2 1 = true)
      ∧ (supply 5 2 50 1 ∈ s.engine.table ∧ listed (supply 5 2 50 1) = some ⟨5, 5, 50, 2⟩ ∧ newer 2 1 = true
        ∧ raiseNames s (supply 5 2 50 1) = false)
      ∧ (supply 13 2 45 1 ∈ s.engine.table ∧ listed (supply 13 2 45 1) = some ⟨5, 13, 45, 1⟩)
      ∧ (let g : Record := { supply 14 2 10 0 with state := .provisional }
        g ∈ s.engine.table ∧ g.isOpenGrant = true ∧ summaryFor 2 listing s g = none)
      ∧ (supply 6 2 50 3 ∈ s.engine.table ∧ listed (supply 6 2 50 3) = some ⟨5, 6, 60, 2⟩ ∧ newerOrEqual 2 3 = false)
      ∧ ({ supply 7 2 30 1 with state := .recalling 10 2 9999 } ∈ s.engine.table
        ∧ listed { supply 7 2 30 1 with state := .recalling 10 2 9999 } = some ⟨5, 7, 20, 1⟩
        ∧ resolves 20 1 { supply 7 2 30 1 with state := .recalling 10 2 9999 } = false) := by decide

theorem witness_DeclareConsumed_resolved :
    let s := inbound (.declare listing) (joined .supplier examined)
    let r : Record := { supply 9 2 30 1 with state := .recalling 10 2 9999 }
    let z : Record := { supply 12 2 30 1 with state := .recalling 0 2 9999 }
    let g : Record := { supply 10 2 20 0 with state := .provisional }
    let listed (r : Record) : Option Summary := (summaryFor 2 listing s r).filter fun x => !farApart x.revision r.revision
    (r ∈ s.engine.table ∧ listed r = some ⟨5, 9, 30, 2⟩ ∧ resolves 30 2 r = true ∧ 0 < min 30 r.amount)
      ∧ (z ∈ s.engine.table ∧ listed z = some ⟨5, 12, 0, 2⟩ ∧ resolves 0 2 z = true ∧ min 0 z.amount = 0)
      ∧ (g ∈ s.engine.table ∧ g.side = .supply ∧ g.isOpenGrant = true ∧ listing.role = 1
        ∧ summaryFor 2 listing s g = some ⟨5, 10, 20, 0⟩ ∧ newerOrEqual 0 g.revision = true)
      ∧ (listing.summaries.find? fun x => decide (x.counterpart = ownAddress s ∧ ∀ r ∈ s.engine.table,
          ¬ (r.counterpart = 2 ∧ r.supplier = keySupplier 2 listing s ∧ r.id = x.id))) = some ⟨5, 11, 40, 0⟩ := by decide

theorem witness_AlertConsumed :
    let s := inbound (.alert 4580) (joined .taker [take 2 1 80 0])
    (s.control.resetHeld = false ∧ s.control.station.speaks = true ∧ normalRoom s = true
        ∧ s.link.inbound = frame (.alert 4580) :: [] ∧ s.engine.role = .taker ∧ (cfg s).sheddable = true)
      ∧ (inbound (.alert 4580) (joined .supplier [])).engine.role ≠ .taker := by decide

theorem witness_AlertConsumed_tables :
    TablesOrdered (inbound (.alert 4580) (joined .taker [take 2 1 80 0]))
      ∧ TablesOrdered (inbound (.alert 4580) (joined .supplier [])) := by unfold TablesOrdered PeersOrdered; decide

theorem witness_PeerTimersEnd :
    let s := joined .taker [take 2 1 80 0]
    s.control.resetHeld = false ∧ s.control.station.hears = true ∧ findPeer s 2 = some (peer 2 0)
      ∧ (peer 2 0).liveness = .active := by decide

theorem witness_AskDeadlineEndsAsk :
    let s := askingTwo (.asked 2500)
    let late (p : Payload) : State := inbound p (joined .taker [])
    (s.control.resetHeld = false ∧ findAsk s 2 = some (pendingAsk (.asked 2500))
        ∧ (pendingAsk (.asked 2500)).state = .asked 2500 ∧ 2500 ≤ (advance 500 s).now)
      ∧ (Consuming (frame (.grant 1 1 80 0)) [] (inbound (.grant 1 1 80 0) s)
        ∧ matchingAsk (inbound (.grant 1 1 80 0) s) 2 1 = some (pendingAsk (.asked 2500)))
      ∧ (Consuming (frame (.grant 1 1 80 0)) [] (late (.grant 1 1 80 0)) ∧ matchingAsk (late (.grant 1 1 80 0)) 2 1 = none)
      ∧ (Consuming (frame (.hold 1 50)) [] (late (.hold 1 50)) ∧ matchingAsk (late (.hold 1 50)) 2 1 = none)
      ∧ (Consuming (frame (.decline 1 1)) [] (late (.decline 1 1)) ∧ matchingAsk (late (.decline 1 1)) 2 1 = none) := by
  unfold Consuming; decide

theorem witness_EngineTimersEnd :
    let s := joined .supplier [recalling 300]
    let suspended := { joined .taker [] with engine := { (joined .taker []).engine with suspendEnd := some 2100 } }
    findAsk (askingTwo (.asked 2500)) 2 = some (pendingAsk (.asked 2500))
      ∧ (findAsk (askingTwo (.held 2500)) 2 = some (pendingAsk (.held 2500))
        ∧ (askingTwo (.held 2500)).control.resetHeld = false)
      ∧ (s.control.station.speaks = true ∧ findSupply s 1 = some (recalling 300)
        ∧ (recalling 300).state = .recalling 200 3 9999)
      ∧ suspended.engine.suspendEnd = some 2100 := by decide

theorem witness_DeclareFallsDue :
    let s := { joined .taker [] with engine := { (joined .taker []).engine with changePending := true } }
    s.control.resetHeld = false ∧ builderIdle s = true ∧ s.engine.lastInstant = some 0
      ∧ s.engine.changePending = true := by decide

/-- Station 5 with an ACTIVE record and a path at the limit 80. -/
def drawing (p : PathCtl) : State := { joined .taker [take 2 1 80 0] with path := p }

theorem witness_PathInputsFollowed :
    let s := drawing { State.reset.path with state := .ramping, limit := 80, rampEnd := some 2100 }
    s.control.resetHeld = false ∧ s.path.state = .ramping ∧ s.path.rampEnd = some 2100
      ∧ s.control.station ≠ .loading ∧ State.reset.control.station = .loading := by decide

/-- The overdraw grace is 1250 bit times, the shed grace 12500. The shed grace ends with the window or after it; the window
closes at the grace's end, or just before it. -/
theorem witness_OverdrawTrips_calm :
    let s := drawing { State.reset.path with state := .closed, limit := 80, shedEnd := some 2100 }
    s.control.resetHeld = false ∧ s.control.station ≠ .loading ∧ s.path.overdraw = none ∧ s.path.shedEnd = some 2100 := by
  decide

/-- 12.3: the shed window ends with no timer running. -/
theorem test_shedWindowClose_calm :
    leads (.shedWindowClose 0) (drawing { State.reset.path with state := .closed, limit := 80, shedEnd := some 2100 }) (fun t =>
      t.now == 2100 && t.path.shedEnd == none && t.path.state = .closed) = true := by decide

theorem witness_OverdrawTrips :
    let s (shed : Option Nat) : State := drawing { State.reset.path with
      state := .closed, limit := 80, pathSense := 90, overdraw := some 1500, shedEnd := shed }
    (s none).control.resetHeld = false ∧ (s none).control.station ≠ .loading
      ∧ (s none).path.overdraw = some 1500 ∧ (s none).path.shedEnd = none
      ∧ ((s (some 14000)).path.shedEnd = some 14000 ∧ 1500 + 125 * (cfg (s none)).shedGrace ≤ 14000)
      ∧ ¬ 1500 + 125 * (cfg (s none)).shedGrace ≤ 13999
      ∧ 1500 + 125 * (cfg (s none)).overdrawGrace ≤ max (advance 0 (s (some 2750))).now 2750
      ∧ max (advance 0 (s (some 2749))).now 2749 < 1500 + 125 * (cfg (s none)).overdrawGrace := by decide

theorem witness_RailIsWatched :
    let s := joined .supplier []
    let low (seen : Option Nat) : State :=
      { joined .supplier [] with path := { State.reset.path with railTimer := some 2000, lastAlert := seen } }
    s.control.resetHeld = false ∧ s.control.station = .joined
      ∧ (4599 < (cfg s).alertThreshold ∧ s.path.armed = true ∧ s.path.railTimer = none)
      ∧ (cfg s).alertThreshold ≤ 4600
      ∧ ((low (some 0)).path.railTimer = some 2000
        ∧ (low (some 0)).engine.role ≠ .taker ∧ (low (some 0)).path.lastAlert = some 0
        ∧ max (advance 122749 (low (some 0))).now (2000 + 250) < 0 + 125 * (cfg s).alertHoldoff)
      ∧ ((low none).path.lastAlert = none ∧ (low none).link.urgent.length < 4 ∧ (low none).link.current = none)
      ∧ ((joined .taker []).engine.role = .taker ∧ (cfg (joined .taker [])).sheddable = true) := by decide

theorem witness_RailIsWatched_tables :
    TablesOrdered { joined .taker [take 2 1 80 0] with path := { State.reset.path with railTimer := some 2000 } } := by
  unfold TablesOrdered PeersOrdered; decide

end Sys2Proof.Tests
end

section
/-! SUPPORT. How a pending ask ends: the frames consumed from the inbound queue as one step each, what the answers to an ask
come to with and without an ask that matches them, and the deadline of an ASKED ask. -/

namespace Sys2Proof.Machine

/-! ### Time that has already passed -/

/-- A time that the clock has already come to by `reach` changes nothing any more: an ACK that ended by then is gone. -/
theorem reach_reach_of_le {t n : Nat} {s : State} (h : t ≤ max s.now n) : reach t (reach n s) = reach n s := by
  have hmax : max (max s.now n) t = max s.now n := max_eq_left h
  obtain h' | ⟨a, -, -, h'⟩ := reach_cases n s
  · cases ha : s.link.ackOut with
    | none => simp [reach_of_ackOut_none, ha, hmax]
    | some a => by_cases he : a.start + ackLength ≤ max s.now n <;> simp [reach, ha, hmax, he]
  · rw [h', reach_of_ackOut_none _ _ rfl]
    simp [hmax]

theorem reach_advance_of_le {d dt : Nat} {s : State} (h : d ≤ (advance dt s).now) :
    reach d (advance dt s) = advance dt s := by
  rw [advance_now] at h
  exact reach_reach_of_le (h.trans (le_max_right _ _))

/-! ### Frames consumed -/

/-- The happening that consumes a frame: dt passes, the frame leaves the queue and has the effect of its kind. -/
theorem happen_consume {f : Frame} {rest : List Frame} {s : State} (h : Consuming f rest s) {k : Nat}
    (hk : f.body.kind = k) (hd : k ≠ 1) (shed : Bool) (dt : Nat) (act : Frame → State → State) :
    happen shed dt (consume k act) s = settle shed (advance dt s) (act f (consumed rest (advance dt s))) := by
  rw [happen_of_not_held s shed dt _ h.1, consume_of_consuming (h.advance dt) hk hd]

section

variable {f : Frame} {rest : List Frame} {s : State} {rid : Nat} (dt : Nat)

theorem exec_consumeGrant (h : Consuming f rest s) {id amount : Nat} {v : Revision}
    (hb : f.body = .grant rid id amount v) :
    exec (.consumeGrant dt) s
      = .next (settle false (advance dt s) (grantConsumed f (consumed rest (advance dt s)))) :=
  congrArg Host.Outcome.next (happen_consume h (by rw [hb]; rfl) (by decide) false dt grantConsumed)

theorem exec_consumeHold (h : Consuming f rest s) {time : Nat} (hb : f.body = .hold rid time) :
    exec (.consumeHold dt) s
      = .next (settle false (advance dt s) (holdConsumed f (consumed rest (advance dt s)))) :=
  congrArg Host.Outcome.next (happen_consume h (by rw [hb]; rfl) (by decide) false dt holdConsumed)

theorem exec_consumeDecline (h : Consuming f rest s) {reason : Nat} (hb : f.body = .decline rid reason) :
    exec (.consumeDecline dt) s
      = .next (settle false (advance dt s) (declineConsumed f (consumed rest (advance dt s)))) :=
  congrArg Host.Outcome.next (happen_consume h (by rw [hb]; rfl) (by decide) false dt declineConsumed)

end

@[simp] theorem findAsk_consumed (rest : List Frame) (s : State) (a : Nat) :
    findAsk (consumed rest s) a = findAsk s a := rfl
@[simp] theorem matchingAsk_consumed (rest : List Frame) (s : State) (a rid : Nat) :
    matchingAsk (consumed rest s) a rid = matchingAsk s a rid := rfl

/-! ### Answers to an ask -/

section

variable {f : Frame} {s : State} {rid : Nat}

theorem grantConsumed_of_unmatched {id amount : Nat} {v : Revision} (hb : f.body = .grant rid id amount v)
    (h : matchingAsk s f.src rid = none) : grantConsumed f s = lateGrant f.src id v s := by
  simp [grantConsumed, hb, h]

theorem holdConsumed_of_unmatched {time : Nat} (hb : f.body = .hold rid time)
    (h : matchingAsk s f.src rid = none) : holdConsumed f s = s := by
  simp [holdConsumed, hb, h]

theorem declineConsumed_of_unmatched {reason : Nat} (hb : f.body = .decline rid reason)
    (h : matchingAsk s f.src rid = none) : declineConsumed f s = s := by
  simp [declineConsumed, hb, h]

theorem declineConsumed_of_matched {reason : Nat} {a : Ask} (hb : f.body = .decline rid reason)
    (h : matchingAsk s f.src rid = some a) : declineConsumed f s = failAsk f.src s := by
  simp [declineConsumed, hb, h]

end

/-! ### No ask is left -/

/-- Which ask pends to a supplier is read off the Pending Ask Table alone. -/
theorem findAsk_congr {s t : State} (h : t.engine.asks = s.engine.asks) (a : Nat) : findAsk t a = findAsk s a := by
  simp only [findAsk, h]

/-- Without an ask to the supplier no answer of it matches. -/
theorem matchingAsk_of_findAsk_none {s : State} {a : Nat} (h : findAsk s a = none) (rid : Nat) :
    matchingAsk s a rid = none := by
  simp only [findAsk, matchingAsk, List.find?_eq_none] at h ⊢
  exact fun x hx hm => h x hx (Bool.and_eq_true_iff.mp hm).1

@[simp] theorem findAsk_answer (dst : Nat) (p : Payload) (s : State) (a : Nat) :
    findAsk (answer dst p s) a = findAsk s a :=
  findAsk_congr (by simp [answer]) a

@[simp] theorem findAsk_putRecord (r : Record) (s : State) (a : Nat) : findAsk (putRecord r s) a = findAsk s a :=
  findAsk_congr (putRecord_asks r s) a

@[simp] theorem findAsk_addRecord (r : Record) (s : State) (a : Nat) : findAsk (addRecord r s) a = findAsk s a :=
  findAsk_congr (by simp [addRecord]) a

/-- A late GRANT starts and ends no ask. -/
@[simp] theorem findAsk_lateGrant (src id : Nat) (v : Revision) (s : State) (a : Nat) :
    findAsk (lateGrant src id v s) a = findAsk s a := by
  unfold lateGrant
  split
  · exact findAsk_answer ..
  · split
    · simp
    · rfl

/-- A GRANT to a raise ends the ask, whether it raises the record or fails. -/
theorem findAsk_grantToRaise (src raised id amount : Nat) (v : Revision) (s : State) :
    findAsk (grantToRaise src raised id amount v s) src = none := by
  unfold grantToRaise
  split
  case isTrue =>
    split
    next =>
      split
      · rw [findAsk_putRecord, findAsk_removeAsk]
      · rw [findAsk_lateGrant, findAsk_failAsk]
    next => rw [findAsk_lateGrant, findAsk_failAsk]
  case isFalse => rw [findAsk_answer, findAsk_failAsk]

/-- A GRANT that matches an ask ends it, for a new contract as for a raise (R53). -/
theorem findAsk_grantConsumed {f : Frame} {s : State} {rid id amount : Nat} {v : Revision} {a : Ask}
    (hb : f.body = .grant rid id amount v) (h : matchingAsk s f.src rid = some a) :
    findAsk (grantConsumed f s) f.src = none := by
  simp only [grantConsumed, hb, h]
  split
  · rw [findAsk_addRecord, findAsk_removeAsk]
  · exact findAsk_grantToRaise ..

/-! ### The deadline of an ASKED ask -/

theorem askTimesOut_of_asked {s : State} {a d : Nat} {x : Ask} (h : findAsk s a = some x) (hx : x.state = .asked d) :
    askTimesOut a s = failAsk a (reach d s) := by
  simp [askTimesOut, h, hx]

theorem exec_askTimeout_of_asked {s : State} {a d : Nat} {x : Ask} (dt : Nat) (hr : s.control.resetHeld = false)
    (h : findAsk s a = some x) (hx : x.state = .asked d) :
    exec (.askTimeout dt a) s = .next (settle false (advance dt s) (failAsk a (reach d (advance dt s)))) := by
  change Host.Outcome.next (happen false dt (askTimesOut a) s) = _
  rw [happen_of_not_held s false dt _ hr, askTimesOut_of_asked (by rwa [findAsk_advance]) hx]

/-- An ask whose frame has been transmitted withdraws none. -/
theorem withoutAsk_normal_of_asked {x : Ask} {d : Nat} (hx : x.state = .asked d) (s : State) :
    (withoutAsk x s).link.normal = s.link.normal := by
  simp [withoutAsk, hx]

/-! ### The statements settled -/

/-- Settles O48: an ask that matches fails, and one that does not leaves only the frame consumed. -/
theorem declineEndsAsk : Obligations.DeclineEndsAsk := by
  intro dt rid reason f rest s p hc hb
  rw [exec_consumeDecline dt hc hb]
  refine ⟨fun a hm hf => ?_, fun hm => ?_⟩
  · have hm' : matchingAsk (consumed rest p) f.src rid = some a := by simpa [p] using hm
    have hf' : findAsk (consumed rest p) f.src = some a := by simpa [p] using hf
    rw [declineConsumed_of_matched hb hm', failAsk_of_found hf']
  · rw [declineConsumed_of_unmatched hb (by simpa using hm)]

/-- Settles O55: the deadline fails the ask, so no later answer matches one, and a GRANT before it removes the ask. -/
theorem askDeadlineEndsAsk : Obligations.AskDeadlineEndsAsk := by
  intro dt a d x s p hr
  refine ⟨fun hf hx hd => ?_, fun f rest hc => ⟨?_, ?_, ?_, ?_⟩⟩
  case refine_1 =>
    have hfail : failAsk a p = skipping a (withoutAsk x p) := failAsk_of_found (by simpa [p] using hf)
    refine ⟨?_, fun rid => ?_, ?_⟩
    · rw [exec_askTimeout_of_asked dt hr hf hx, reach_advance_of_le hd, hfail]
    · rw [← hfail]
      exact matchingAsk_of_findAsk_none (findAsk_failAsk a p) rid
    · exact (withoutAsk_normal_of_asked hx p).trans (advance_normal dt s)
  case refine_2 =>
    intro rid id amount v y hb hm
    exact ⟨_, exec_consumeGrant dt hc hb, findAsk_grantConsumed hb (by simpa using hm)⟩
  case refine_3 =>
    intro rid id amount v hb hm
    rw [exec_consumeGrant dt hc hb, grantConsumed_of_unmatched hb (by simpa using hm)]
  case refine_4 =>
    intro rid time hb hm
    rw [exec_consumeHold dt hc hb, holdConsumed_of_unmatched hb (by simpa using hm)]
  case refine_5 =>
    intro rid reason hb hm
    rw [exec_consumeDecline dt hc hb, declineConsumed_of_unmatched hb (by simpa using hm)]

end Sys2Proof.Machine
end

section
/-! SUPPORT. The CRC-16 of R171 bit by bit, its two bytes as they are stored, and what the checks of a frame and of an image
have tested where they pass. -/

namespace Sys2Proof.Machine

/-! ### The CRC bit by bit (R171) -/

/-- One bit taken into the CRC: the value is shifted left, and the polynomial is added where the bit differs from the one
shifted out. -/
def crcTakeBit (c : BitVec 16) (x : Bool) : BitVec 16 := if (c.msb != x) = true then (c <<< 1) ^^^ 0x1021 else c <<< 1

/-- `crcBit` on a value that later bits `w` have been added to: its top bit is taken in, and the others move up. -/
theorem crcBit_xor (c w : BitVec 16) : crcBit (c ^^^ w) = crcTakeBit c w.msb ^^^ (w <<< 1) := by
  unfold crcBit crcTakeBit
  rw [BitVec.msb_xor, BitVec.shiftLeft_xor_distrib]
  by_cases hx : (c.msb != w.msb) = true
  · rw [if_pos hx, if_pos hx]
    ac_rfl
  · rw [if_neg hx, if_neg hx]

/-- Bits added to the value all at once, at its top, come to the same as bits taken in one at a time. -/
theorem crcBit_iterate_xor (c w : BitVec 16) (n : Nat) :
    crcBit^[n] (c ^^^ w) = ((List.range n).map w.getMsbD).foldl crcTakeBit c ^^^ (w <<< n) := by
  induction n with
  | zero => simp
  | succ n ih =>
    rw [Function.iterate_succ_apply', ih, crcBit_xor, BitVec.msb_shiftLeft, ← BitVec.shiftLeft_add]
    simp [List.range_succ]

/-- A byte of the CRC takes in the byte's eight bits, most significant first. -/
theorem crcByte_eq_foldl (c : BitVec 16) (b : Byte) :
    crcByte c b = ((List.range 8).map b.getMsbD).foldl crcTakeBit c := by
  have hbits : (b.setWidth 16 <<< 8).getMsbD = b.getMsbD := by
    funext i
    simp
  have hout : (b.setWidth 16 <<< 8) <<< 8 = 0#16 := by
    rw [← BitVec.shiftLeft_add]
    exact BitVec.shiftLeft_eq_zero (by decide)
  calc crcByte c b = crcBit^[8] (c ^^^ (b.setWidth 16 <<< 8)) := rfl
    _ = _ := by rw [crcBit_iterate_xor, hbits, hout, BitVec.xor_zero]

/-- The CRC takes in the bits of all the bytes, in order, from 0xFFFF. -/
theorem crc16_eq_foldl (bs : List Byte) :
    crc16 bs = (bs.flatMap fun b => (List.range 8).map b.getMsbD).foldl crcTakeBit 0xFFFF := by
  rw [List.foldl_flatMap, crc16]
  exact congrArg (fun g => bs.foldl g 0xFFFF) (funext₂ crcByte_eq_foldl)

/-- A 16-bit word is stored most significant byte first. -/
theorem put16_toNat (c : BitVec 16) : put16 c.toNat = [c.extractLsb' 8 8, c.extractLsb' 0 8] := by
  simp [put16, BitVec.extractLsb', Nat.shiftRight_eq_div_pow]

/-! ### The checks that pass (R146, R172) -/

/-- Where a chain of checks gives `c`, which is not what the first check gives where it fails, the first check has passed
and the rest of the chain gives `c`. -/
theorem not_and_eq_of_ite_eq {α : Type} {p : Prop} [Decidable p] {a b c : α} (h : (if p then a else b) = c)
    (hne : a ≠ c) : ¬ p ∧ b = c := by
  by_cases hp : p
  · exact absurd (by rwa [if_pos hp] at h) hne
  · exact ⟨hp, by rwa [if_neg hp] at h⟩

/-- What a reception that is a valid frame has passed: the early checks, the length of a whole frame, no bits over, an idle
line, and the CRC. -/
theorem checks_of_classify_valid {r : Reception} {f : Frame} (h : classify r = .valid f) :
    earlyChecksPass r.bytes = true ∧ r.bytes.length = 7 + (r.bytes.getD 4 0).toNat ∧ r.bits = 0 ∧ r.lineEnd = .idle
      ∧ (r.bytes.drop (5 + (r.bytes.getD 4 0).toNat)).take 2
          = crcBytes ((r.bytes.drop 1).take (4 + (r.bytes.getD 4 0).toNat)) := by
  simp only [classify] at h
  obtain ⟨hearly, h⟩ := not_and_eq_of_ite_eq h (by simp)
  obtain ⟨-, h⟩ := not_and_eq_of_ite_eq h (by simp)
  obtain ⟨hcrc, h⟩ := not_and_eq_of_ite_eq h (by simp)
  obtain ⟨hwhole, h⟩ := not_and_eq_of_ite_eq h (by simp)
  obtain ⟨hcontention, -⟩ := not_and_eq_of_ite_eq h (by simp)
  push Not at hcrc hwhole
  obtain ⟨hoverrun, hbits, hlen⟩ := hwhole
  have hidle : r.lineEnd = .idle := by
    cases hl : r.lineEnd with
    | idle => rfl
    | contention => exact absurd hl hcontention
    | overrun => exact absurd hl hoverrun
  exact ⟨by simpa using hearly, hlen, hbits, hidle, hcrc⟩

/-- An image that is adopted has 30 bytes, the marker, the version, its CRC and no bad field, and what is adopted is its
fields. -/
theorem checks_of_checkImage_adopt {bs : List Byte} {c : StationConfig} (h : checkImage (some bs) = .adopt c) :
    imageBytes ≤ bs.length ∧ be16 (bs.getD 0 0) (bs.getD 1 0) = 0xE73A ∧ (bs.getD 2 0).toNat = 1
      ∧ (bs.drop 28).take 2 = crcBytes (bs.take 28) ∧ badFieldOf bs = none ∧ c = imageFields bs := by
  simp only [checkImage] at h
  obtain ⟨hlen, h⟩ := not_and_eq_of_ite_eq h (by simp)
  obtain ⟨hmarker, h⟩ := not_and_eq_of_ite_eq h (by simp)
  obtain ⟨hversion, h⟩ := not_and_eq_of_ite_eq h (by simp)
  obtain ⟨hcrc, h⟩ := not_and_eq_of_ite_eq h (by simp)
  cases hfields : badFieldOf bs with
  | some i => simp [hfields] at h
  | none =>
    have hc : c = imageFields bs := by simpa [hfields, eq_comm] using h
    exact ⟨not_lt.mp hlen, not_not.mp hmarker, not_not.mp hversion, not_not.mp hcrc, rfl, hc⟩

/-- A valid frame ends in the CRC of the bytes between its delimiter and its last two. -/
theorem crc_of_classify_valid {r : Reception} {f : Frame} (h : classify r = .valid f) :
    r.bytes.drop (r.bytes.length - 2) = crcBytes ((r.bytes.drop 1).take (r.bytes.length - 3)) := by
  obtain ⟨-, hlen, -, -, hcrc⟩ := checks_of_classify_valid h
  have hend : r.bytes.length - 2 = 5 + (r.bytes.getD 4 0).toNat := by omega
  have hcovered : r.bytes.length - 3 = 4 + (r.bytes.getD 4 0).toNat := by omega
  have htwo : (r.bytes.drop (r.bytes.length - 2)).length ≤ 2 := by rw [List.length_drop]; omega
  rw [← List.take_of_length_le htwo, hend, hcovered, hcrc]

/-! ### The statement settled -/

/-- Settles O15: a byte of the CRC is its eight bits taken in one by one, and the CRC is among what each check has tested. -/
theorem crcFollowsR171 : Obligations.CrcFollowsR171 := by
  refine ⟨fun bs => ⟨crc16_eq_foldl bs, put16_toNat (crc16 bs)⟩, fun _ => rfl, fun _ _ => crc_of_classify_valid,
    fun bs c h => ?_⟩
  obtain ⟨-, -, -, hcrc, -, -⟩ := checks_of_checkImage_adopt h
  exact hcrc

end Sys2Proof.Machine
end

section
/-! SUPPORT. Commands as happenings: what each command does of its own, what surrounds it, and how every step leads from
one law to another once each of these does. -/

namespace Sys2Proof.Machine

/-- The bit times that pass before a command. -/
def dtOf : Instr → Nat
  | .powerOnReset dt _ | .pinReset dt | .resetRelease dt _ | .loadComplete dt _ _ | .memoryTimeout dt _
  | .listenTimerEnd dt _ _ | .commit dt _ | .pop dt _ | .eventFlagClear dt _ | .eventMaskWrite dt _ | .hostWrite dt _ _
  | .setDemand dt | .setCapacity dt | .setRole dt | .leave dt | .rejoin dt | .reclose dt | .clearUnpowered dt
  | .readPeers dt | .readContracts dt | .restart ⟨dt, _⟩ | .unknownRequest dt | .receiveDeclare dt _ | .receiveAlert dt _
  | .receiveAck dt _ | .receiveDirectedFrame dt _ | .malformedReception dt _ | .fragment dt _ | .ackTransmit dt
  | .collision dt | .quietGapEnd dt _ | .retryGapEnd dt _ | .broadcastTransmissionEnd dt | .ackWindowClose dt
  | .consumeAsk dt | .consumeGrant dt | .consumeHold dt | .consumeDecline dt | .consumeTrim dt | .consumeRecall dt
  | .consumeYield dt | .consumeRelease dt | .consumeDeclare dt | .consumeAlert dt | .peerSilent dt _
  | .peerLostThreshold dt _ | .askTimeout dt _ | .holdEnd dt _ | .recallDeadline dt _ | .declarePeriodDue dt
  | .declareSpacingEnd dt | .rampEnd dt | .pathCurrentChange dt _ | .trip dt | .shedWindowClose dt | .railLow dt _
  | .railRestored dt _ | .brownout dt _ | .alertSuspensionEnd dt | .supplyLoss dt | .supplyReturn dt => dt

/-- The effect that is a command's own, inside its happening; the resets and a reading of PATH_SENSE have none there. -/
def effect : Instr → State → State
  | .powerOnReset _ _ | .pinReset _ | .resetRelease _ _ | .pathCurrentChange _ _ => id
  | .loadComplete _ image supply => loadDone image supply
  | .memoryTimeout _ supply => loadTimedOut supply
  | .listenTimerEnd _ incarnation rail => listenDone incarnation rail
  | .commit _ value => writeTransaction [0x00, 0x1A, value]
  | .pop _ value => writeTransaction [0x00, 0x1B, value]
  | .eventFlagClear _ value => writeTransaction (0x00 :: 0x10 :: regionBytes value)
  | .eventMaskWrite _ value => writeTransaction (0x00 :: 0x12 :: regionBytes value)
  | .hostWrite _ bytes _ => writeTransaction bytes
  | .setDemand _ => takeOf (· == 1)
  | .setCapacity _ => takeOf (· == 2)
  | .setRole _ => takeOf (· == 3)
  | .leave _ => takeOf (· == 4)
  | .rejoin _ => takeOf (· == 5)
  | .reclose _ => takeOf (· == 6)
  | .clearUnpowered _ => takeOf (· == 7)
  | .readPeers _ => takeOf (· == 8)
  | .readContracts _ => takeOf (· == 9)
  | .restart sample => takeRestart sample.straps
  | .unknownRequest _ => takeOf fun k => k == 0 || decide (10 < k)
  | .receiveDeclare _ r => receiveDeclareEffect r
  | .receiveAlert _ r => receiveAlertEffect r
  | .receiveAck _ r => receiveAckEffect r
  | .receiveDirectedFrame _ r => receiveDirectedEffect r
  | .malformedReception _ r => malformedEffect r
  | .fragment _ r => fragmentEffect r
  | .ackTransmit _ => ackBegins
  | .collision _ => collide
  | .quietGapEnd _ k => quietGapEnds k
  | .retryGapEnd _ k => retryGapEnds k
  | .broadcastTransmissionEnd _ => broadcastEnds
  | .ackWindowClose _ => windowCloses
  | .consumeAsk _ => consume 2 askConsumed
  | .consumeGrant _ => consume 3 grantConsumed
  | .consumeHold _ => consume 4 holdConsumed
  | .consumeDecline _ => consume 5 declineConsumed
  | .consumeTrim _ => consume 6 trimConsumed
  | .consumeRecall _ => consume 7 recallConsumed
  | .consumeYield _ => consume 8 yieldConsumed
  | .consumeRelease _ => consume 9 releaseConsumed
  | .consumeDeclare _ => consume 1 declareConsumed
  | .consumeAlert _ => consume 10 fun _ => alertEffect
  | .peerSilent _ a => peerFallsSilent a
  | .peerLostThreshold _ a => peerIsLost a
  | .askTimeout _ a => askTimesOut a
  | .holdEnd _ a => holdEnds a
  | .recallDeadline _ id => recallExpires id
  | .declarePeriodDue _ => periodPasses
  | .declareSpacingEnd _ => spacingEnds
  | .rampEnd _ => rampEnds
  | .trip _ => tripNow
  | .shedWindowClose _ => windowEnds
  | .railLow _ rail | .railRestored _ rail => readRail rail
  | .brownout _ rail => brownoutNow rail
  | .alertSuspensionEnd _ => suspensionEnds
  | .supplyLoss _ => followSupply false
  | .supplyReturn _ => followSupply true

/-- A change of what no law speaks of: the clock, the waiting commands, the sense readings and the record of what the host
read. -/
def retimed (n : Nat) (w : List Instr) (a b : Nat) (o : List Byte) (x : BitVec 16) (d : Nat) (s : State) : State :=
  { s with
    now := n, pending := w
    path := { s.path with pathSense := a, railSense := b }
    host := { s.host with out := o, pointer := x, draws := d } }

/-- All that a command other than a reset can do: its happening, with new readings before it and a read of the window after
it, or that read alone. -/
theorem exec_of_not_reset {i : Instr} (s : State) (h : isReset i = false) :
    ∃ t, exec i s = .next t ∧
      ((∃ n, t = readTransaction n (advance (dtOf i) s))
        ∨ ∃ n b a r, t = readTransaction n (happen b (dtOf i) (effect i)
            { s with path := { s.path with pathSense := a, railSense := r } })) := by
  have plain (b : Bool) : ∃ n b' a r, happen b (dtOf i) (effect i) s
      = readTransaction n (happen b' (dtOf i) (effect i)
          { s with path := { s.path with pathSense := a, railSense := r } }) :=
    ⟨0, b, s.path.pathSense, s.path.railSense, by simp [readTransaction]⟩
  cases i
  case powerOnReset | pinReset | resetRelease => cases h
  case hostWrite dt bytes reads =>
    refine ⟨_, rfl, ?_⟩
    unfold hostWritePart
    split
    · exact .inl ⟨reads, rfl⟩
    · exact .inr ⟨reads, false, s.path.pathSense, s.path.railSense, rfl⟩
  case pathCurrentChange dt c =>
    exact ⟨_, rfl, .inr ⟨0, false, c, s.path.railSense, by simp [readTransaction, effect, dtOf]; rfl⟩⟩
  case railLow dt v =>
    exact ⟨_, rfl, .inr ⟨0, false, s.path.pathSense, v, by simp [readTransaction, effect, dtOf]⟩⟩
  case railRestored dt v =>
    exact ⟨_, rfl, .inr ⟨0, false, s.path.pathSense, v, by simp [readTransaction, effect, dtOf]⟩⟩
  case receiveDeclare | consumeRecall | consumeRelease | consumeDeclare | consumeAlert | peerLostThreshold | brownout =>
    exact ⟨_, rfl, .inr (plain true)⟩
  all_goals exact ⟨_, rfl, .inr (plain false)⟩

/-- All that a command can do: a reset, or what `exec_of_not_reset` says. -/
theorem exec_cases (i : Instr) (s : State) :
    ∃ t, exec i s = .next t ∧
      ((∃ straps, t = powerOn straps (advance (dtOf i) s)) ∨ t = pinResetNow (advance (dtOf i) s)
        ∨ (∃ straps, t = releaseReset straps (advance (dtOf i) s))
        ∨ (∃ n, t = readTransaction n (advance (dtOf i) s))
        ∨ ∃ n b a r, t = readTransaction n (happen b (dtOf i) (effect i)
            { s with path := { s.path with pathSense := a, railSense := r } })) := by
  cases hr : isReset i with
  | false =>
    obtain ⟨t, e, h⟩ := exec_of_not_reset s hr
    exact ⟨t, e, .inr (.inr (.inr h))⟩
  | true =>
    cases i with
    | powerOnReset dt straps => exact ⟨_, rfl, .inl ⟨straps, rfl⟩⟩
    | pinReset dt => exact ⟨_, rfl, .inr (.inl rfl)⟩
    | resetRelease dt straps => exact ⟨_, rfl, .inr (.inr (.inl ⟨straps, rfl⟩))⟩
    | _ => cases hr

/-- How every step leads from the law P to the law Q: both speak of nothing that `retimed` changes, the end of an ACK keeps
P, every reset meets Q, and every happening leads from P to Q. -/
structure Leads (P Q : State → Prop) : Prop where
  weakens : ∀ s, P s → Q s
  before : ∀ n w a b o x d s, P s → P (retimed n w a b o x d s)
  behind : ∀ n w a b o x d s, Q s → Q (retimed n w a b o x d s)
  ackEnds : ∀ t s, P s → P { s with link := { s.link with ackOut := none, idleSince := t } }
  reset : ∀ c straps s, Q (resetStation c straps s)
  held : ∀ c straps a s, Q (holdReset a (resetStation c straps s))
  happening : ∀ b i p, P p → p.control.resetHeld = false → Q (settle b p (effect i p))

variable {P Q : State → Prop}

theorem Leads.reach (k : Leads P Q) (n : Nat) {s : State} (h : P s) : P (reach n s) := by
  have quiet : ∀ m u, P u → P { u with now := m } := fun m u hu =>
    k.before m u.pending u.path.pathSense u.path.railSense u.host.out u.host.pointer u.host.draws u hu
  obtain e | ⟨a, -, -, e⟩ := reach_cases n s
  · exact e ▸ quiet _ _ h
  · exact e ▸ quiet _ _ (k.ackEnds _ _ h)

theorem Leads.readTransaction (k : Leads P Q) (n : Nat) {s : State} (h : Q s) : Q (readTransaction n s) := by
  unfold Machine.readTransaction
  split
  · exact h
  · exact k.behind s.now s.pending s.path.pathSense s.path.railSense _ _ _ s h

theorem Leads.happen (k : Leads P Q) (b : Bool) (dt : Nat) (i : Instr) {s : State} (h : P s) :
    Q (happen b dt (effect i) s) := by
  have hp : P (advance dt s) := k.reach _ h
  unfold Machine.happen
  dsimp only
  split
  · exact k.weakens _ hp
  · rename_i hr
    exact k.happening b i _ hp (by simpa using hr)

theorem Leads.exec (k : Leads P Q) {i : Instr} {s t : State} (h : P s) (e : exec i s = .next t) : Q t := by
  have hp : P (advance (dtOf i) s) := k.reach _ h
  obtain ⟨t', e', c⟩ := exec_cases i s
  obtain rfl : t' = t := by rw [e'] at e; injection e
  obtain ⟨straps, rfl⟩ | rfl | ⟨straps, rfl⟩ | ⟨n, rfl⟩ | ⟨n, b, a, r, rfl⟩ := c
  · unfold powerOn
    dsimp only
    split
    · exact k.held ..
    · exact k.reset ..
  · exact k.held ..
  · unfold releaseReset
    split
    · exact k.reset ..
    · exact k.weakens _ hp
  · exact k.readTransaction _ (k.weakens _ hp)
  · exact k.readTransaction _ (k.happen _ _ _
      (k.before s.now s.pending a r s.host.out s.host.pointer s.host.draws s h))

/-- A step then leads from P to Q. -/
theorem Leads.step (k : Leads P Q) {s t : State} (h : P s) (e : step s = .next t) : Q t := by
  unfold Machine.step at e
  split at e
  · cases e; exact k.weakens _ h
  · rename_i i rest _
    exact k.exec (k.before s.now rest s.path.pathSense s.path.railSense s.host.out s.host.pointer s.host.draws s h) e

end Sys2Proof.Machine
end

section
/-! SUPPORT. Bargaining: what the operations on records, asks, notices and the normal queue can do together. `Bargains b c s t`
says that t comes from s by such operations, of which none adds a record or starts an ask; b says whether one may place a
frame, and c is what the ranges of the fields rest on. Each operation has one lemma; what a law needs of a whole effect is
then read off. -/

namespace Sys2Proof.Machine

/-- The state with everything blanked that bargaining may write. -/
def aside (s : State) : State :=
  { s with
    engine := { s.engine with
      table := [], asks := [], changePending := false, nextRef := 1 }
    peers := s.peers.map fun p => { p with skip := false }
    link := { s.link with normal := [] }
    host := { s.host with flags := 0 } }

/-! ### The frame of each operation -/

@[simp] theorem aside_setEvent (e : Event) (s : State) : aside (setEvent e s) = aside s := rfl
@[simp] theorem aside_noteContracts (s : State) : aside (noteContracts s) = aside s := rfl
@[simp] theorem aside_noteChange (s : State) : aside (noteChange s) = aside s := by unfold noteChange; split <;> rfl
theorem aside_setTable (s : State) (l : List Record) : aside { s with engine.table := l } = aside s := rfl
theorem aside_setAsks (s : State) (l : List Ask) : aside { s with engine.asks := l } = aside s := rfl
@[simp] theorem aside_updateAsk (a : Nat) (f : Ask → Ask) (s : State) : aside (updateAsk a f s) = aside s := rfl

@[simp] theorem aside_putRecord (r : Record) (s : State) : aside (putRecord r s) = aside s := by
  unfold putRecord
  split
  · rfl
  · dsimp only
    split <;> split <;> simp [aside_setTable]

@[simp] theorem aside_addRecord (r : Record) (s : State) : aside (addRecord r s) = aside s := by
  simp [addRecord, aside_setTable]

@[simp] theorem aside_dropRecords (p : Record → Bool) (s : State) : aside (dropRecords p s) = aside s := by
  unfold dropRecords; split <;> simp [aside_setTable]

@[simp] theorem aside_enqueue (f : OutFrame) (s : State) : aside (enqueue f s) = aside s := by
  unfold enqueue; split <;> rfl

@[simp] theorem aside_releaseFrame (a : Ask) (s : State) : aside (releaseFrame a s) = aside s := by
  unfold releaseFrame; split <;> rfl

@[simp] theorem aside_removeAsk (a : Nat) (s : State) : aside (removeAsk a s) = aside s := by
  unfold removeAsk; split <;> simp [aside_setAsks]

@[simp] theorem aside_setSkip (a : Nat) (s : State) : aside (setSkip a s) = aside s := by
  simp only [aside, setSkip, updatePeer, List.map_map]
  congr 1
  exact List.map_congr_left fun p _ => by simp only [Function.comp_apply]; split <;> rfl

/-! ### The normal queue -/

/-- The normal queue l with frames taken out of it, and frames other than DECLAREs behind it while there was room. -/
def Queues (placing : Bool) (l m : List OutFrame) : Prop :=
  ∃ kept new, m = kept ++ new ∧ kept.Sublist l ∧ (new ≠ [] → placing = true) ∧ (∀ f ∈ new, f.isDeclare = false)
    ∧ (l.length ≤ normalPlaces → m.length ≤ normalPlaces)

theorem Queues.of_sublist {b : Bool} {l m : List OutFrame} (h : m.Sublist l) : Queues b l m :=
  ⟨m, [], by simp, h, by simp, by simp, h.length_le.trans⟩

theorem Queues.trans {b : Bool} {l m n : List OutFrame} (h : Queues b l m) (k : Queues b m n) : Queues b l n := by
  obtain ⟨kept, new, rfl, hk, hp, hd, hl⟩ := h
  obtain ⟨kept', new', rfl, hk', hp', hd', hl'⟩ := k
  obtain ⟨x, y, rfl, hx, hy⟩ := List.sublist_append_iff.mp hk'
  refine ⟨x, y ++ new', by simp, hx.trans hk, fun hn => ?_, fun f hf => ?_, fun h => hl' (hl h)⟩
  · by_cases hy' : y = []
    · exact hp' (by simpa [hy'] using hn)
    · exact hp fun he => hy' (List.sublist_nil.mp (he ▸ hy))
  · rcases List.mem_append.mp hf with hf | hf
    · exact hd f (hy.subset hf)
    · exact hd' f hf

/-- Nothing is placed where nothing may be. -/
theorem Queues.sublist {l m : List OutFrame} (h : Queues false l m) : m.Sublist l := by
  obtain ⟨kept, new, rfl, hk, hp, -, -⟩ := h
  have : new = [] := by
    by_contra hn
    exact absurd (hp hn) (by simp)
  simpa [this] using hk

/-- The DECLAREs that wait are among those that waited. -/
theorem Queues.declares {b : Bool} {l m : List OutFrame} (h : Queues b l m) :
    (m.filter OutFrame.isDeclare).Sublist (l.filter OutFrame.isDeclare) := by
  obtain ⟨kept, new, rfl, hk, -, hd, -⟩ := h
  have : new.filter OutFrame.isDeclare = [] := by
    rw [List.filter_eq_nil_iff]
    exact fun f hf => by simp [hd f hf]
  rw [List.filter_append, this, List.append_nil]
  exact hk.filter _

theorem Queues.mem_declare {b : Bool} {l m : List OutFrame} (h : Queues b l m) {f : OutFrame} (hf : f ∈ m)
    (hd : f.isDeclare = true) : f ∈ l :=
  (List.mem_filter.mp (h.declares.subset (List.mem_filter.mpr ⟨hf, hd⟩))).1

theorem queues_enqueue {f : OutFrame} (hf : f.isDeclare = false) (s : State) :
    Queues true s.link.normal (enqueue f s).link.normal := by
  unfold enqueue
  split
  · rename_i h
    refine ⟨s.link.normal, [f], rfl, .refl _, fun _ => rfl, by simp [hf], fun _ => ?_⟩
    have : s.link.normal.length < normalPlaces := by simpa [normalRoom] using h
    simp only [List.length_append, List.length_cons, List.length_nil]
    omega
  · exact .of_sublist (.refl _)

/-! ### Keys and ranges -/

/-- What a contract record keeps for good: its key, its side and its counterpart. -/
def Record.key (r : Record) : Nat × Nat × Side × Nat := (r.supplier, r.id, r.side, r.counterpart)

/-- The supplier of an ask and the contract it raises, which it keeps for good. -/
def Ask.aim (a : Ask) : Nat × Option Nat := (a.supplier, a.raised)

theorem Record.Follows.key {q r : Record} (h : q.Follows r) : r.key = q.key := by
  obtain ⟨h1, h2, h3, h4, -, -⟩ := h
  simp [Record.key, h1, h2, h3, h4]

/-- Records and asks with distinct keys and every field in its range. -/
def Fits (s : State) : Prop :=
  Distinct s.engine.table ∧ (∀ r ∈ s.engine.table, r.inOrder = true) ∧ DistinctAsks s.engine.asks
    ∧ ∀ a ∈ s.engine.asks, a.inOrder = true

theorem distinct_iff (l : List Record) :
    Distinct l ↔ (l.map Record.key).Pairwise fun j k => ¬ (j.1 = k.1 ∧ j.2.1 = k.2.1) := by
  rw [List.pairwise_map]; rfl

theorem distinctAsks_iff (l : List Ask) : DistinctAsks l ↔ (l.map Ask.aim).Pairwise fun j k => j.1 ≠ k.1 := by
  rw [List.pairwise_map]; rfl

theorem Distinct.of_keys {l m : List Record} (h : Distinct l) (k : (m.map Record.key).Sublist (l.map Record.key)) :
    Distinct m :=
  (distinct_iff m).mpr (((distinct_iff l).mp h).sublist k)

theorem DistinctAsks.of_aims {l m : List Ask} (h : DistinctAsks l) (k : (m.map Ask.aim).Sublist (l.map Ask.aim)) :
    DistinctAsks m :=
  (distinctAsks_iff m).mpr (((distinctAsks_iff l).mp h).sublist k)

theorem Distinct.unique {l : List Record} (h : Distinct l) {q r : Record} (hq : q ∈ l) (hr : r ∈ l)
    (hs : q.supplier = r.supplier) (hi : q.id = r.id) : q = r := by
  induction l with
  | nil => cases hq
  | cons a l ih =>
    obtain ⟨h1, h2⟩ := List.pairwise_cons.mp h
    rcases List.mem_cons.mp hq with hq | hq <;> rcases List.mem_cons.mp hr with hr | hr
    · exact hq.trans hr.symm
    · exact absurd (hq ▸ ⟨hs, hi⟩) (h1 r hr)
    · exact absurd (hr ▸ ⟨hs.symm, hi.symm⟩) (h1 q hq)
    · exact ih h2 hq hr

/-- Of a table with distinct keys a supplier and an id give the whole key. -/
theorem Distinct.key_unique {l : List Record} (h : Distinct l) {j k : Nat × Nat × Side × Nat} (hj : j ∈ l.map Record.key)
    (hk : k ∈ l.map Record.key) (hs : j.1 = k.1) (hi : j.2.1 = k.2.1) : j = k := by
  obtain ⟨q, hq, rfl⟩ := List.mem_map.mp hj
  obtain ⟨r, hr, rfl⟩ := List.mem_map.mp hk
  rw [h.unique hq hr hs hi]

/-- Replacing the record of a key by one with that key leaves every key. -/
theorem putRecord_keys {n : Record} {t : State}
    (h : ∀ q ∈ t.engine.table, q.supplier = n.supplier → q.id = n.id → q.key = n.key) :
    (putRecord n t).engine.table.map Record.key = t.engine.table.map Record.key := by
  rw [putRecord_table, List.map_map]
  refine List.map_congr_left fun q hq => ?_
  simp only [Function.comp_apply]
  split
  · rename_i hk
    have : q.supplier = n.supplier ∧ q.id = n.id := by simpa [Record.hasKey] using hk
    exact (h q hq this.1 this.2).symm
  · rfl

/-- A record in recall may enter any state. -/
theorem Record.follows_recalling (r : Record) (h : r.isRecalling = true) (a : Nat) (v : Revision) (x : RecordState)
    (o : Option Notice) (m : Nat) : r.Follows { r with amount := a, revision := v, state := x, owed := o, miss := m } := by
  cases hs : r.state with
  | recalling t w d => exact ⟨rfl, rfl, rfl, rfl, fun _ k => by simp [hs] at k, fun _ k => by simp [hs] at k⟩
  | _ => simp [Record.isRecalling, hs] at h

/-! ### Records in order -/

/-- The ranges of a record's fields, one by one. -/
theorem Record.inOrder_iff (r : Record) :
    r.inOrder = true ↔ addressOk r.supplier = true ∧ contractIdOk r.id = true ∧ addressOk r.counterpart = true
      ∧ amountOk r.amount = true ∧ r.miss ≤ 1 ∧ (r.isRecalling = true ∨ r.owed ≠ some .recall)
      ∧ (match r.state with
        | .raising a _ => amountOk a = true
        | .recalling t _ _ => t ≤ maxAmount
        | .closing => r.owed.isSome = true
        | _ => True) := by
  unfold Record.inOrder
  cases r.state <;> simp [and_assoc]

/-- A smaller amount is a contract amount while it is not 0. -/
theorem amountOk_of_le {a b : Nat} (h : amountOk b = true) (h1 : 0 < a) (h2 : a ≤ b) : amountOk a = true := by
  simp only [amountOk, decide_eq_true_eq] at *
  omega

theorem inOrder_closing {r : Record} (h : r.inOrder = true) (v : Revision) {k : Notice} (hk : k ≠ .recall) :
    Record.inOrder { r with revision := v, state := .closing, owed := some k } = true := by
  simp only [Record.inOrder_iff] at *
  obtain ⟨h1, h2, h3, h4, h5, -, -⟩ := h
  exact ⟨h1, h2, h3, h4, h5, .inr (by simpa using hk), rfl⟩

theorem inOrder_recalling {r : Record} (h : r.inOrder = true) {n : Nat} (hn : n ≤ r.amount) (v : Revision) (d : Nat) :
    Record.inOrder { r with state := .recalling n v d, owed := some .recall } = true := by
  simp only [Record.inOrder_iff] at *
  obtain ⟨h1, h2, h3, h4, h5, -, -⟩ := h
  refine ⟨h1, h2, h3, h4, h5, .inl rfl, ?_⟩
  simp only [amountOk, decide_eq_true_eq] at h4
  exact hn.trans h4.2

/-- A record not CLOSING whose notice is placed. -/
theorem inOrder_settled {r : Record} (h : r.inOrder = true) (hc : r.isClosing = false) :
    Record.inOrder { r with owed := none } = true := by
  simp only [Record.inOrder_iff] at *
  obtain ⟨h1, h2, h3, h4, h5, -, h7⟩ := h
  refine ⟨h1, h2, h3, h4, h5, .inr (by simp), ?_⟩
  cases hs : r.state <;> simp_all [Record.isClosing]

/-- A record ACTIVE at an amount up to its own. -/
theorem inOrder_resolved {r : Record} (h : r.inOrder = true) {a m : Nat} (ha : 0 < a) (hl : a ≤ r.amount)
    (hm : m ≤ r.miss) (v : Revision) :
    Record.inOrder { r with amount := a, revision := v, state := .active, owed := dropOwedRecall r.owed, miss := m }
      = true := by
  simp only [Record.inOrder_iff] at *
  obtain ⟨h1, h2, h3, h4, h5, -, -⟩ := h
  refine ⟨h1, h2, h3, amountOk_of_le h4 ha hl, by omega, .inr ?_, trivial⟩
  rcases r.owed with _ | _ | _ | _ | _ <;> simp [dropOwedRecall]

/-- A record in its state at an amount up to its own, with a notice owed that fits the state. -/
theorem inOrder_reduced {r : Record} (h : r.inOrder = true) {a : Nat} {o : Option Notice} (ha : 0 < a)
    (hl : a ≤ r.amount) (ho : o ≠ some .recall) (hc : o.isSome = true ∨ r.isClosing = false) (v : Revision) :
    Record.inOrder { r with amount := a, revision := v, owed := o } = true := by
  simp only [Record.inOrder_iff] at *
  obtain ⟨h1, h2, h3, h4, h5, -, h7⟩ := h
  refine ⟨h1, h2, h3, amountOk_of_le h4 ha hl, h5, .inr ho, ?_⟩
  cases hs : r.state <;> simp_all [Record.isClosing]

/-! ### The relation -/

/-- t comes from s by bargaining. -/
structure Bargains (placing : Bool) (c : Prop) (s t : State) : Prop where
  frame : aside t = aside s
  traced : Traced s.engine.table t
  asks : (t.engine.asks.map Ask.aim).Sublist (s.engine.asks.map Ask.aim)
  queue : Queues placing s.link.normal t.link.normal
  keys : Distinct s.engine.table → (t.engine.table.map Record.key).Sublist (s.engine.table.map Record.key)
  fits : c → Fits s → Fits t

namespace Bargains

variable {b : Bool} {c : Prop} {s t u : State}

theorem refl (s : State) : Bargains b c s s :=
  ⟨rfl, .refl s, .refl _, .of_sublist (.refl _), fun _ => .refl _, fun _ h => h⟩

theorem distinct (h : Bargains b c s t) (hd : Distinct s.engine.table) : Distinct t.engine.table := hd.of_keys (h.keys hd)

theorem trans (h : Bargains b c s t) (k : Bargains b c t u) : Bargains b c s u := by
  exact ⟨k.frame.trans h.frame, h.traced.trans k.traced, k.asks.trans h.asks, h.queue.trans k.queue,
    fun hd => (k.keys (h.distinct hd)).trans (h.keys hd), fun hc hs => k.fits hc (h.fits hc hs)⟩

/-- An operation that leaves table and asks alone, and what is not bargaining. -/
theorem plain (h : Bargains b c s t) (hf : aside u = aside t) (ht : u.engine.table = t.engine.table)
    (ha : u.engine.asks = t.engine.asks) (hq : Queues b t.link.normal u.link.normal) : Bargains b c s u :=
  ⟨hf.trans h.frame, h.traced.of_table ht, ha ▸ h.asks, h.queue.trans hq, ht ▸ h.keys,
    fun hc hs => by simpa only [Fits, ht, ha] using h.fits hc hs⟩

theorem weaken (h : Bargains b c s t) {d : Prop} (hd : d → c) : Bargains b d s t :=
  ⟨h.frame, h.traced, h.asks, h.queue, h.keys, fun k => h.fits (hd k)⟩

/-- Where nothing was placed, nothing was placed where something might have been. -/
theorem placing (h : Bargains false c s t) : Bargains b c s t :=
  ⟨h.frame, h.traced, h.asks, .of_sublist h.queue.sublist, h.keys, h.fits⟩

theorem control (h : Bargains b c s t) : t.control = s.control := congrArg (fun x => x.control) h.frame
theorem role (h : Bargains b c s t) : t.engine.role = s.engine.role := congrArg (fun x => x.engine.role) h.frame
theorem demand (h : Bargains b c s t) : t.engine.demand = s.engine.demand := congrArg (fun x => x.engine.demand) h.frame
theorem capacity (h : Bargains b c s t) : t.engine.capacity = s.engine.capacity :=
  congrArg (fun x => x.engine.capacity) h.frame
theorem supply (h : Bargains b c s t) : t.engine.supply = s.engine.supply := congrArg (fun x => x.engine.supply) h.frame
theorem suspendEnd (h : Bargains b c s t) : t.engine.suspendEnd = s.engine.suspendEnd :=
  congrArg (fun x => x.engine.suspendEnd) h.frame
theorem nextContract (h : Bargains b c s t) : t.engine.nextContract = s.engine.nextContract :=
  congrArg (fun x => x.engine.nextContract) h.frame
theorem nextRequest (h : Bargains b c s t) : t.engine.nextRequest = s.engine.nextRequest :=
  congrArg (fun x => x.engine.nextRequest) h.frame
theorem finalDue (h : Bargains b c s t) : t.engine.finalDue = s.engine.finalDue :=
  congrArg (fun x => x.engine.finalDue) h.frame
theorem declareDue (h : Bargains b c s t) : t.engine.declareDue = s.engine.declareDue :=
  congrArg (fun x => x.engine.declareDue) h.frame
theorem path (h : Bargains b c s t) : t.path = s.path := congrArg (fun x => x.path) h.frame
theorem now (h : Bargains b c s t) : t.now = s.now := congrArg (fun x => x.now) h.frame
theorem current (h : Bargains b c s t) : t.link.current = s.link.current := congrArg (fun x => x.link.current) h.frame
theorem preempted (h : Bargains b c s t) : t.link.preempted = s.link.preempted :=
  congrArg (fun x => x.link.preempted) h.frame
theorem urgent (h : Bargains b c s t) : t.link.urgent = s.link.urgent := congrArg (fun x => x.link.urgent) h.frame
theorem inbound (h : Bargains b c s t) : t.link.inbound = s.link.inbound := congrArg (fun x => x.link.inbound) h.frame
theorem ackDue (h : Bargains b c s t) : t.link.ackDue = s.link.ackDue := congrArg (fun x => x.link.ackDue) h.frame
theorem ackOut (h : Bargains b c s t) : t.link.ackOut = s.link.ackOut := congrArg (fun x => x.link.ackOut) h.frame
theorem counters (h : Bargains b c s t) : t.link.counters = s.link.counters :=
  congrArg (fun x => x.link.counters) h.frame
theorem requests (h : Bargains b c s t) : t.host.requests = s.host.requests := congrArg (fun x => x.host.requests) h.frame
theorem results (h : Bargains b c s t) : t.host.results = s.host.results := congrArg (fun x => x.host.results) h.frame
theorem reserved (h : Bargains b c s t) : t.host.reserved = s.host.reserved := congrArg (fun x => x.host.reserved) h.frame
theorem long (h : Bargains b c s t) : t.host.long = s.host.long := congrArg (fun x => x.host.long) h.frame

/-- The entries stand but for their skip flags. -/
theorem peers (h : Bargains b c s t) :
    t.peers.map (fun p => { p with skip := false }) = s.peers.map fun p => { p with skip := false } :=
  congrArg (fun x => x.peers) h.frame

theorem askSuppliers (h : Bargains b c s t) :
    (t.engine.asks.map Ask.supplier).Sublist (s.engine.asks.map Ask.supplier) := by
  simpa [Function.comp_def, Ask.aim] using h.asks.map Prod.fst

theorem peerAddrs (h : Bargains b c s t) : t.peers.map Peer.addr = s.peers.map Peer.addr := by
  simpa [Function.comp_def] using congrArg (List.map Peer.addr) h.peers

/-! ### The operations -/

/-- Replacing a record by a later form of one that was there. -/
theorem putRecord (h : Bargains b c s t) {r n : Record} (hr : Of s.engine.table r) (hf : r.Follows n)
    (hn : c → Fits s → n.inOrder = true) : Bargains b c s (putRecord n t) := by
  have hkeys (hd : Distinct s.engine.table) :
      (Machine.putRecord n t).engine.table.map Record.key = t.engine.table.map Record.key := by
    have hmem : n.key ∈ s.engine.table.map Record.key := by
      obtain ⟨q, hq, hqr⟩ := hr.next hf
      exact hqr.key ▸ List.mem_map_of_mem hq
    exact putRecord_keys fun q hq hsup hid =>
      hd.key_unique ((h.keys hd).subset (List.mem_map_of_mem hq)) hmem hsup hid
  have hlink : (Machine.putRecord n t).link = t.link := by
    unfold Machine.putRecord
    split
    · rfl
    · dsimp only
      split <;> split <;> simp
  refine ⟨(aside_putRecord n t).trans h.frame, h.traced.putRecord hr hf, ?_, ?_, fun hd => hkeys hd ▸ h.keys hd,
    fun hc hs => ?_⟩
  · rw [putRecord_asks]; exact h.asks
  · rw [hlink]; exact h.queue
  · obtain ⟨-, hi, ha, hj⟩ := h.fits hc hs
    refine ⟨hs.1.of_keys (hkeys hs.1 ▸ h.keys hs.1), fun x hx => ?_, ?_, ?_⟩
    · rcases mem_putRecord hx with rfl | hx
      · exact hn hc hs
      · exact hi x hx
    · rwa [putRecord_asks]
    · rwa [putRecord_asks]

theorem dropRecords (h : Bargains b c s t) (p : Record → Bool) : Bargains b c s (dropRecords p t) := by
  obtain ⟨x, f, e⟩ := dropRecords_eq p t
  have hsub : ((Machine.dropRecords p t).engine.table.map Record.key).Sublist (t.engine.table.map Record.key) := by
    rw [dropRecords_table]; exact List.filter_sublist.map _
  refine ⟨(aside_dropRecords p t).trans h.frame, h.traced.dropRecords p, ?_, ?_, fun hd => hsub.trans (h.keys hd),
    fun hc hs => ?_⟩
  · rw [e]; exact h.asks
  · rw [e]; exact h.queue
  · obtain ⟨hd, hi, ha, hj⟩ := h.fits hc hs
    refine ⟨hd.of_keys hsub, fun r hr => ?_, by rw [e]; exact ha, by rw [e]; exact hj⟩
    rw [dropRecords_table] at hr
    exact hi r (List.mem_filter.mp hr).1

theorem dropRecord (h : Bargains b c s t) (a i : Nat) : Bargains b c s (dropRecord a i t) := h.dropRecords _

theorem removeAsk (h : Bargains b c s t) (a : Nat) : Bargains b c s (removeAsk a t) := by
  obtain ⟨p, e⟩ := removeAsk_eq a t
  refine ⟨(aside_removeAsk a t).trans h.frame, h.traced.of_table (removeAsk_table a t), ?_, ?_,
    by rw [removeAsk_table]; exact h.keys, fun hc hs => ?_⟩
  · rw [e]; exact (List.filter_sublist.map _).trans h.asks
  · rw [e]; exact h.queue.trans (.of_sublist List.filter_sublist)
  · obtain ⟨hd, hi, ha, hj⟩ := h.fits hc hs
    rw [e]
    exact ⟨hd, hi, ha.filter _, fun x hx => hj x (List.mem_filter.mp hx).1⟩

theorem removeRaise (h : Bargains b c s t) (r : Record) : Bargains b c s (removeRaise r t) := by
  unfold Machine.removeRaise
  split
  · exact h.removeAsk _
  · exact h

theorem removeAllAsks (h : Bargains b c s t) : Bargains b c s (removeAllAsks t) := by
  unfold Machine.removeAllAsks
  generalize t.engine.asks.map Ask.supplier = l
  induction l generalizing t with
  | nil => exact h
  | cons a l ih => exact ih (h.removeAsk a)

theorem setEvent (h : Bargains b c s t) (e : Event) : Bargains b c s (setEvent e t) :=
  h.plain rfl rfl rfl (.of_sublist (.refl _))

theorem setSkip (h : Bargains b c s t) (a : Nat) : Bargains b c s (setSkip a t) :=
  h.plain (aside_setSkip a t) rfl rfl (.of_sublist (.refl _))

theorem failAsk (h : Bargains b c s t) (a : Nat) : Bargains b c s (failAsk a t) := (h.removeAsk a).setSkip a

theorem releaseFrame (h : Bargains b c s t) (a : Ask) : Bargains b c s (releaseFrame a t) := by
  refine h.plain (aside_releaseFrame a t) (by simp) (by simp) ?_
  unfold Machine.releaseFrame
  split
  · exact .of_sublist List.filter_sublist
  · exact .of_sublist (.refl _)

/-- Changing the ask to a supplier, which keeps its aim. -/
theorem updateAsk (h : Bargains b c s t) (a : Nat) (f : Ask → Ask) (hf : ∀ x, (f x).aim = x.aim)
    (hi : c → Fits s → Fits t → ∀ x ∈ t.engine.asks, x.supplier = a → (f x).inOrder = true) :
    Bargains b c s (updateAsk a f t) := by
  have haim : (Machine.updateAsk a f t).engine.asks.map Ask.aim = t.engine.asks.map Ask.aim := by
    simp only [Machine.updateAsk, List.map_map]
    exact List.map_congr_left fun x _ => by simp only [Function.comp_apply]; split <;> simp [hf]
  refine ⟨h.frame, h.traced.of_table rfl, haim ▸ h.asks, h.queue, h.keys, fun hc hs => ?_⟩
  obtain ⟨hd, hr, ha, hj⟩ := h.fits hc hs
  refine ⟨hd, hr, ha.of_aims (haim ▸ .refl _), fun x hx => ?_⟩
  obtain ⟨y, hy, rfl⟩ := List.mem_map.mp hx
  split
  · rename_i e
    exact hi hc hs ⟨hd, hr, ha, hj⟩ y hy (by simpa using e)
  · exact hj y hy

theorem enqueue (h : Bargains true c s t) {f : OutFrame} (hf : f.isDeclare = false) : Bargains true c s (enqueue f t) :=
  h.plain (aside_enqueue f t) (by simp) (by simp) (queues_enqueue hf t)

theorem answer (h : Bargains true c s t) (d : Nat) (p : Payload) : Bargains true c s (answer d p t) := h.enqueue rfl

/-! ### The operations made of them -/

/-- A fold over records, each a form of one that the fold found. -/
theorem foldl (h : Bargains b c s t) (g : State → Record → State) (rs : List Record)
    (hg : ∀ r ∈ rs, ∀ u, Bargains b c s u → Bargains b c s (g u r)) : Bargains b c s (rs.foldl g t) := by
  induction rs generalizing t with
  | nil => exact h
  | cons r rs ih =>
    exact ih (hg r List.mem_cons_self t h) fun x hx => hg x (List.mem_cons_of_mem _ hx)

theorem closeTake (h : Bargains b c s t) (k : Notice) (hk : k ≠ .recall) {r : Record} (hr : r ∈ s.engine.table) :
    Bargains b c s (closeTake k r t) :=
  (h.putRecord (.self hr) (r.follows_closing r.revision (some k))
    fun _ hs => inOrder_closing (hs.2.1 r hr) r.revision hk).removeRaise r

theorem startRecall (h : Bargains b c s t) {n : Nat} {r : Record} (hr : r ∈ s.engine.table) (hs : r.isSupply = true)
    (hn : n ≤ r.amount) : Bargains b c s (startRecall n r t) :=
  h.putRecord (.self hr) (r.follows_supply (by simpa [Record.isSupply] using hs) r.amount r.revision _ _ r.miss)
    fun _ hf => inOrder_recalling (hf.2.1 r hr) hn _ _

theorem placeNotice (h : Bargains true c s t) {r : Record} (hr : r ∈ s.engine.table) :
    Bargains true c s (placeNotice t r) := by
  unfold Machine.placeNotice
  split
  · exact h
  · split
    · rename_i k _ _
      dsimp only
      have he : Bargains true c s (Machine.enqueue (noticeFrame r k) t) := h.enqueue rfl
      split
      · exact he.dropRecord _ _
      · rename_i hcl
        exact he.putRecord (.self hr) (r.follows_same_state r.amount r.revision none r.miss)
          fun _ hs => inOrder_settled (hs.2.1 r hr) (by simpa using hcl)
    · exact h

theorem placeNotices (h : Bargains true c s t) : Bargains true c s (placeNotices t) :=
  h.trans ((refl t).foldl _ _ fun _ hr _ hu => hu.placeNotice hr)

theorem closeAllTake (h : Bargains b c s t) : Bargains b c s (closeAllTake t) :=
  h.trans ((refl t).foldl _ _ fun _ hr _ hu => hu.closeTake .release nofun (List.mem_filter.mp hr).1)

theorem recallAll (h : Bargains b c s t) : Bargains b c s (recallAll t) :=
  h.trans ((refl t).foldl _ _ fun r hr _ hu => by
    obtain ⟨hm, hp⟩ := List.mem_filter.mp hr
    exact hu.startRecall hm (by simp_all) (Nat.zero_le _))

/-- Resolving a recall of a record, whose miss count the caller may have cleared. -/
theorem resolveRecall (h : Bargains b c s t) (a : Nat) (v : Revision) {r : Record} (hr : r ∈ s.engine.table)
    (m : Nat) (hm : m ≤ r.miss) : Bargains b c s (resolveRecall a v { r with miss := m } t) := by
  unfold Machine.resolveRecall
  split
  · rename_i hst
    split
    · exact h.dropRecord _ _
    · rename_i h0
      refine h.putRecord (.self hr) (r.follows_recalling (by simp only at hst; simp [Record.isRecalling, hst]) ..)
        fun _ hf => ?_
      exact inOrder_resolved (hf.2.1 r hr) (Nat.pos_of_ne_zero h0) (Nat.min_le_right _ _) hm _
  · exact h

theorem planRecalls (h : Bargains b c s t) (pre : State) : Bargains b c s (planRecalls pre t) := by
  unfold Machine.planRecalls
  split
  · refine h.trans ((refl t).foldl _ _ fun r hr u hu => ?_)
    unfold planOne
    split
    · exact hu
    · refine hu.startRecall (mem_planOrder hr).1 (mem_planOrder hr).2 ?_
      unfold recallTarget
      dsimp only
      split <;> omega
  · exact h.recallAll
  · exact h

theorem trimExcess (h : Bargains b c s t) : Bargains b c s (trimExcess t) := by
  unfold Machine.trimExcess
  split
  · refine h.trans ((refl t).foldl _ _ fun r hr u hu => ?_)
    have hm : r ∈ t.engine.table := List.mem_reverse.mp hr
    unfold trimOne
    split
    · exact hu
    · rename_i hex
      dsimp only
      split
      · exact hu.closeTake .release nofun hm
      · refine hu.putRecord (.self hm) (r.follows_same_state _ _ _ r.miss) fun _ hf => ?_
        refine inOrder_reduced (hf.2.1 r hm) (by omega) (Nat.sub_le _ _) (by simp) (.inl (by simp)) _
  · exact h

theorem requeueAsks (h : Bargains true c s t) (n : Nat) : Bargains true c s (requeueAsks n t) := by
  induction n generalizing t with
  | zero => exact h
  | succ n ih =>
    unfold Machine.requeueAsks
    split
    · exact h
    · rename_i a _
      split
      · refine ih ?_
        have he := (h.enqueue (f := askFrame a t.engine.nextRef) rfl).updateAsk a.supplier
          (fun x => { x with state := .queued t.engine.nextRef }) (fun _ => rfl)
          fun _ _ ht x hx _ => ht.2.2.2 x hx
        exact he.plain rfl rfl rfl (.of_sublist (.refl _))
      · exact h

end Bargains

end Sys2Proof.Machine
end

section
/-! SUPPORT. The effects of consumed frames, of outcomes reported and of alarms, told as bargaining. -/

namespace Sys2Proof.Machine

/-! ### Ranges of the records these effects leave -/

theorem Record.inOrder_amountOk {r : Record} (h : r.inOrder = true) : amountOk r.amount = true :=
  ((r.inOrder_iff).mp h).2.2.2.1

/-- A RECALL is owed only in RECALLING. -/
theorem Record.inOrder_owed {r : Record} (h : r.inOrder = true) (hn : r.isRecalling = false) : r.owed ≠ some .recall :=
  ((r.inOrder_iff).mp h).2.2.2.2.2.1.resolve_left (by simp [hn])

/-- A record not in recall made ACTIVE at a contract amount. -/
theorem inOrder_active {r : Record} (h : r.inOrder = true) (hn : r.isRecalling = false) {a : Nat}
    (ha : amountOk a = true) (v : Revision) : Record.inOrder { r with amount := a, revision := v, state := .active } = true := by
  have ho := r.inOrder_owed h hn
  simp only [Record.inOrder_iff] at *
  obtain ⟨h1, h2, h3, -, h5, -, -⟩ := h
  exact ⟨h1, h2, h3, ha, h5, .inr ho, trivial⟩

/-- A record in its state at another contract amount and revision. -/
theorem inOrder_amended {r : Record} (h : r.inOrder = true) {a m : Nat} (ha : amountOk a = true) (hm : m ≤ 1)
    (v : Revision) : Record.inOrder { r with amount := a, revision := v, miss := m } = true := by
  simp only [Record.inOrder_iff] at *
  obtain ⟨h1, h2, h3, -, -, h6, h7⟩ := h
  exact ⟨h1, h2, h3, ha, hm, h6, h7⟩

/-- A raise granted: the amount grows up to the ceiling, and the prior values are kept. -/
theorem inOrder_raising {r : Record} (h : r.inOrder = true) (hn : r.isRecalling = false) (x : Nat) (v : Revision) :
    Record.inOrder { r with
      amount := r.amount + min x (maxAmount - r.amount), revision := v, state := .raising r.amount r.revision } = true := by
  have ho := r.inOrder_owed h hn
  simp only [Record.inOrder_iff] at *
  obtain ⟨h1, h2, h3, h4, h5, -, -⟩ := h
  refine ⟨h1, h2, h3, ?_, h5, .inr ho, h4⟩
  simp only [amountOk, decide_eq_true_eq] at *
  omega

/-! ### The records that lookups find -/

theorem findSupply_spec {s : State} {i : Nat} {r : Record} (h : findSupply s i = some r) :
    r ∈ s.engine.table ∧ r.side = .supply ∧ r.supplier = ownAddress s ∧ r.id = i := by
  obtain ⟨hf, hs⟩ := Option.filter_eq_some_iff.mp h
  have hk : r.supplier = ownAddress s ∧ r.id = i := by simpa [Record.hasKey] using List.find?_some hf
  exact ⟨List.mem_of_find?_eq_some hf, by simpa [Record.isSupply] using hs, hk.1, hk.2⟩

theorem findTake_spec {s : State} {a i : Nat} {r : Record} (h : findTake s a i = some r) :
    r ∈ s.engine.table ∧ r.side = .take ∧ r.supplier = a ∧ r.id = i := by
  obtain ⟨hf, hs⟩ := Option.filter_eq_some_iff.mp h
  have hk : r.supplier = a ∧ r.id = i := by simpa [Record.hasKey] using List.find?_some hf
  exact ⟨List.mem_of_find?_eq_some hf, by simpa [Record.isTake] using hs, hk.1, hk.2⟩

theorem namedSupply_spec {s : State} {a i : Nat} {r : Record} (h : namedSupply a i s = some r) :
    r ∈ s.engine.table ∧ r.side = .supply ∧ r.supplier = ownAddress s ∧ r.id = i ∧ r.counterpart = a := by
  obtain ⟨hf, hc⟩ := Option.filter_eq_some_iff.mp h
  obtain ⟨h1, h2, h3, h4⟩ := findSupply_spec hf
  exact ⟨h1, h2, h3, h4, by simpa using hc⟩

theorem concernedRecord_spec {s : State} {a i : Nat} {r : Record} (h : concernedRecord a i s = some r) :
    r ∈ s.engine.table ∧ r.side = .supply ∧ r.counterpart = a ∧ r.isClosing = false := by
  unfold concernedRecord at h
  split at h
  · rename_i x hx
    obtain rfl : x = r := by injection h
    obtain ⟨hf, hc⟩ := Option.filter_eq_some_iff.mp hx
    obtain ⟨h1, h2, -, -⟩ := findSupply_spec hf
    simp only [Bool.and_eq_true, beq_iff_eq, Bool.not_eq_true'] at hc
    exact ⟨h1, h2, hc.1, hc.2⟩
  · have hp := List.find?_some h
    simp only [Record.isSupply, Bool.and_eq_true, decide_eq_true_eq, beq_iff_eq, Bool.not_eq_true'] at hp
    exact ⟨List.mem_of_find?_eq_some h, hp.1.1, hp.1.2, hp.2⟩

theorem matchingAsk_spec {s : State} {a rid : Nat} {x : Ask} (h : matchingAsk s a rid = some x) :
    x ∈ s.engine.asks ∧ x.supplier = a ∧ x.requestId = rid := by
  have hp := List.find?_some h
  simp only [Bool.and_eq_true, beq_iff_eq] at hp
  exact ⟨List.mem_of_find?_eq_some h, hp.1, hp.2⟩

theorem grantRecord_spec {s : State} {i : Nat} {v : Revision} {r : Record} (h : grantRecord s i v = some r) :
    findSupply s i = some r ∧ r.isOpenGrant = true ∧ r.revision = v := by
  obtain ⟨hf, hp⟩ := Option.filter_eq_some_iff.mp h
  simp only [Bool.and_eq_true, beq_iff_eq] at hp
  exact ⟨hf, hp.1, hp.2⟩

theorem not_recalling_of_openGrant {r : Record} (h : r.isOpenGrant = true) : r.isRecalling = false := by
  cases hs : r.state <;> simp_all [Record.isOpenGrant, Record.isRecalling]

theorem not_closing_of_openGrant {r : Record} (h : r.isOpenGrant = true) : r.isClosing = false := by
  cases hs : r.state <;> simp_all [Record.isOpenGrant, Record.isClosing]

theorem not_recalling_of_active {r : Record} (h : r.isActive = true) : r.isRecalling = false := by
  cases hs : r.state <;> simp_all [Record.isActive, Record.isRecalling]

/-- A GRANT answers an ASK of a SUPPLIER for a contract not in recall, within what is free, with a place for a new one. -/
theorem judgeAsk_grant {r : Option Record} {n : Nat} {s : State} (h : judgeAsk r n s = .grant) :
    s.engine.role = .supplier ∧ (r = none → s.engine.table.length < contractPlaces) ∧ (n : Int) ≤ free s
      ∧ ∀ x, r = some x → x.isRecalling = false ∧ x.isOpenGrant = false ∧ n ≤ maxAmount - x.amount := by
  unfold judgeAsk at h
  dsimp only at h
  split at h
  · rename_i hrole
    obtain ⟨hfull, h⟩ := not_and_eq_of_ite_eq h (by simp)
    obtain ⟨hopen, h⟩ := not_and_eq_of_ite_eq h (by simp)
    obtain ⟨hbudget, -⟩ := not_and_eq_of_ite_eq h (by simp)
    simp only [decide_eq_true_eq, not_or, Bool.not_eq_true] at hbudget hopen
    obtain ⟨hfree, hceil, hrec⟩ := hbudget
    refine ⟨hrole, fun hn => ?_, not_lt.mp hfree, fun x hx => ?_⟩
    · subst hn
      simpa using hfull
    · subst hx
      exact ⟨hrec, hopen.1, not_lt.mp hceil⟩
  · cases h
  · cases h

/-! ### Consumption -/

/-- All that the turn to consume a kind can do: nothing, a frame discarded, or a frame accepted and handled. -/
theorem consume_cases (k : Nat) (act : Frame → State → State) (s : State) :
    consume k act s = s ∨ ∃ f rest, s.control.station.speaks = true ∧ s.link.inbound = f :: rest ∧ f.body.kind = k
      ∧ (consume k act s = consumed rest s
        ∨ accepted f (consumed rest s) = true ∧ consume k act s = act f (consumed rest s)) := by
  unfold consume
  split
  · rename_i hs
    simp only [Bool.and_eq_true] at hs
    split
    · rename_i f rest hi
      split
      · rename_i hk
        dsimp only
        split
        · rename_i ha
          exact .inr ⟨f, rest, hs.1, hi, hk, .inr ⟨ha, rfl⟩⟩
        · exact .inr ⟨f, rest, hs.1, hi, hk, .inl rfl⟩
      · exact .inl rfl
    · exact .inl rfl
  · exact .inl rfl

theorem accepted_spec {f : Frame} {s : State} (h : accepted f s = true) (hd : f.body.isBroadcast = false) :
    knownPeer s f.src = true ∧ f.body.inRange = true := by
  cases hb : f.body <;> simp_all [accepted, Payload.isBroadcast]

variable {c : Prop} {s : State} {f : Frame}

/-- A raise granted. -/
theorem grantRaise_bargains {taker rid asked : Nat} {r : Record} (hr : r ∈ s.engine.table) (hs : r.side = .supply)
    (hn : r.isRecalling = false) : Bargains true c s (grantRaise taker rid asked r s) :=
  ((Bargains.refl s).putRecord (.self hr) (r.follows_supply hs ..)
    fun _ hf => inOrder_raising (hf.2.1 r hr) hn _ _).answer _ _

theorem lateGrant_bargains (src id : Nat) (v : Revision) (s : State) : Bargains true c s (lateGrant src id v s) := by
  unfold lateGrant
  split
  · exact (Bargains.refl s).answer _ _
  · rename_i r hr
    split
    · obtain ⟨hm, -⟩ := findTake_spec hr
      refine ((Bargains.refl s).putRecord (.self hm) (r.follows_same_state r.amount _ r.owed r.miss) fun _ hf => ?_).answer _ _
      exact inOrder_amended (hf.2.1 r hm) (r.inOrder_amountOk (hf.2.1 r hm)) ((r.inOrder_iff.mp (hf.2.1 r hm)).2.2.2.2.1) _
    · exact .refl s

/-- A GRANT to a raise, of a contract amount. -/
theorem grantToRaise_bargains (src raised id : Nat) {amount : Nat} (v : Revision) (s : State) (ha : amountOk amount = true) :
    Bargains true c s (grantToRaise src raised id amount v s) := by
  have late : Bargains true c s (lateGrant src id v (failAsk src s)) :=
    ((Bargains.refl s).failAsk src).trans (lateGrant_bargains ..)
  unfold grantToRaise
  split
  · split
    · rename_i r hr
      split
      · obtain ⟨hm, -⟩ := findTake_spec hr
        refine ((Bargains.refl s).removeAsk src).putRecord (.self hm) (r.follows_same_state amount v r.owed r.miss) ?_
        exact fun _ hf => inOrder_amended (hf.2.1 r hm) ha ((r.inOrder_iff.mp (hf.2.1 r hm)).2.2.2.2.1) _
      · exact late
    · exact late
  · exact ((Bargains.refl s).failAsk src).answer _ _

/-- A GRANT that records no new contract. -/
theorem grantConsumed_bargains (f : Frame) (s : State) (hf : f.body.inRange = true)
    (hn : ∀ rid id amount v a, f.body = .grant rid id amount v → matchingAsk s f.src rid = some a → a.raised ≠ none) :
    Bargains true c s (grantConsumed f s) := by
  unfold grantConsumed
  split
  · rename_i rid id amount v hb
    split
    · exact lateGrant_bargains ..
    · rename_i a ha
      split
      · rename_i hr
        exact absurd hr (hn _ _ _ _ _ hb ha)
      · refine grantToRaise_bargains _ _ _ _ _ ?_
        rw [hb] at hf
        simp only [Payload.inRange, decide_eq_true_eq] at hf
        simpa [amountOk] using hf.2.2.2.2
  · exact .refl s

theorem holdConsumed_bargains (f : Frame) (s : State) : Bargains true c s (holdConsumed f s) := by
  unfold holdConsumed
  split
  · split
    · exact .refl s
    · rename_i a ha
      obtain ⟨hm, hsup, -⟩ := matchingAsk_spec ha
      split
      · rename_i hh
        refine ((Bargains.refl s).releaseFrame a).updateAsk _ _ (fun _ => rfl) fun _ hs ht x hx hxs => ?_
        have hxs' : x ∈ s.engine.asks := by simpa using hx
        obtain rfl : x = a := hs.2.2.1.unique hxs' hm (hxs.trans hsup.symm)
        have := hs.2.2.2 x hm
        simp only [Ask.inOrder, maxHolds, Bool.and_eq_true, decide_eq_true_eq] at this hh ⊢
        obtain ⟨hfields, hr1, hr2, hm1, hm2, -⟩ := this
        exact ⟨hfields, hr1, hr2, hm1, hm2, hh⟩
      · exact (Bargains.refl s).failAsk _
  · exact .refl s

theorem declineConsumed_bargains (f : Frame) (s : State) : Bargains true c s (declineConsumed f s) := by
  unfold declineConsumed
  split
  · split
    · exact .refl s
    · exact (Bargains.refl s).failAsk _
  · exact .refl s

theorem reduction_bargains (taker id a : Nat) (v : Revision) (s : State) : Bargains true c s (reduction taker id a v s) := by
  unfold reduction
  split
  · split
    · exact .refl s
    · exact (Bargains.refl s).answer _ _
  · rename_i r hr
    obtain ⟨hm, hs, -⟩ := namedSupply_spec hr
    split
    · exact .refl s
    · split
      · exact (Bargains.refl s).resolveRecall a v hm r.miss (le_refl _)
      · exact .refl s
    · rename_i hnc hnr
      split
      · rename_i hlt
        split
        · exact (Bargains.refl s).dropRecord _ _
        · rename_i h0
          refine (Bargains.refl s).putRecord (.self hm) (r.follows_supply hs ..) fun _ hf => ?_
          refine inOrder_active (hf.2.1 r hm) ?_ (amountOk_of_le (r.inOrder_amountOk (hf.2.1 r hm)) (Nat.pos_of_ne_zero h0)
            hlt.2.le) v
          cases hst : r.state <;> simp_all [Record.isRecalling]
      · exact .refl s

theorem trimConsumed_bargains (f : Frame) (s : State) : Bargains true c s (trimConsumed f s) := by
  unfold trimConsumed
  split
  · exact reduction_bargains ..
  · exact .refl s

theorem yieldConsumed_bargains (f : Frame) (s : State) : Bargains true c s (yieldConsumed f s) := by
  unfold yieldConsumed
  split
  · exact reduction_bargains ..
  · exact .refl s

theorem recallConsumed_bargains (f : Frame) (s : State) : Bargains true c s (recallConsumed f s) := by
  unfold recallConsumed
  split
  · rename_i id target v _
    split
    · exact (Bargains.refl s).answer _ _
    · rename_i r hr
      obtain ⟨hm, -⟩ := findTake_spec hr
      have hof : Of s.engine.table r := .self hm
      split
      · rename_i hact
        unfold recallActive
        refine Bargains.placeNotices ?_
        split
        · split
          · exact ((Bargains.refl s).putRecord hof (r.follows_closing v (some .yield))
              fun _ hf => inOrder_closing (hf.2.1 r hm) v nofun).removeRaise _
          · rename_i h0
            refine (Bargains.refl s).putRecord hof (r.follows_same_state _ v _ r.miss) fun _ hf => ?_
            have := r.inOrder_amountOk (hf.2.1 r hm)
            simp only [amountOk, decide_eq_true_eq] at this
            exact inOrder_reduced (hf.2.1 r hm) (lt_min this.1 (Nat.pos_of_ne_zero h0)) (Nat.min_le_left _ _) (by simp) (.inl rfl) v
        · refine (Bargains.refl s).putRecord hof (r.follows_same_state r.amount r.revision _ r.miss) fun _ hf => ?_
          have := r.inOrder_amountOk (hf.2.1 r hm)
          simp only [amountOk, decide_eq_true_eq] at this
          exact inOrder_reduced (hf.2.1 r hm) this.1 (le_refl _) (by simp) (.inl rfl) r.revision
      · exact .refl s
  · exact .refl s

theorem releaseConsumed_bargains (f : Frame) (s : State) : Bargains true c s (releaseConsumed f s) := by
  unfold releaseConsumed
  split
  · split
    · split
      · exact ((Bargains.refl s).dropRecord _ _).removeRaise _
      · exact .refl s
    · split
      · split
        · exact (Bargains.refl s).dropRecord _ _
        · exact .refl s
      · exact .refl s
  · exact .refl s

/-! ### Reconciliation -/

theorem confirmGrant_bargains {b : Bool} {t : State} (h : Bargains b c s t) {r : Record} (hm : r ∈ s.engine.table)
    (hs : r.side = .supply) (ho : r.isOpenGrant = true) : Bargains b c s (confirmGrant r t) :=
  h.putRecord (.self hm) (r.follows_supply hs r.amount r.revision _ r.owed r.miss)
    fun _ hf => inOrder_active (hf.2.1 r hm) (not_recalling_of_openGrant ho) (r.inOrder_amountOk (hf.2.1 r hm)) r.revision

theorem confirmStep_bargains (src : Nat) (d : Declare) (s : State) : Bargains true c s (confirmStep src d s) := by
  unfold confirmStep
  split
  · exact .refl s
  · refine (Bargains.refl s).foldl _ _ fun r hm u hu => ?_
    unfold confirmOne
    split
    · rename_i hc
      simp only [Bool.and_eq_true, Record.isSupply, decide_eq_true_eq] at hc
      exact confirmGrant_bargains hu hm hc.1.1.1 hc.1.1.2
    · exact hu

/-- A record as the table of settling leaves it, with its misses cleared. -/
theorem inOrder_settledTable {r : Record} (h : r.inOrder = true) {a : Nat} (ha : 0 < a) (raise : Bool) (v : Revision) :
    (settled raise a v { r with miss := 0 }).inOrder = true := by
  have h0 := r.inOrder_amountOk h
  unfold settled
  split
  · rename_i hlt
    exact inOrder_amended h (amountOk_of_le h0 ha hlt.2.le) (Nat.zero_le 1) v
  · split
    · exact inOrder_amended h h0 (Nat.zero_le 1) v
    · exact inOrder_amended h h0 (Nat.zero_le 1) r.revision

/-- Settling keeps the contract and its state. -/
theorem follows_settled (r : Record) (raise : Bool) (a : Nat) (v : Revision) :
    r.Follows (settled raise a v { r with miss := 0 }) := by
  unfold settled
  split
  · exact r.follows_same_state a v r.owed 0
  · split
    · exact r.follows_same_state r.amount v r.owed 0
    · exact r.follows_same_state r.amount r.revision r.owed 0

/-- A relevant summary of a DECLARE in range carries an amount. -/
theorem summaryFor_pos {src : Nat} {d : Declare} {s : State} {r : Record} {m : Summary} (hd : d.inRange = true)
    (h : summaryFor src d s r = some m) : 0 < m.amount := by
  unfold summaryFor at h
  split at h
  · have hm : m ∈ d.summaries := (List.mem_filter.mp (List.mem_of_find?_eq_some h)).1
    simp only [Declare.inRange, Bool.and_eq_true, List.all_eq_true] at hd
    have := hd.2 m hm
    simp only [Summary.inRange, decide_eq_true_eq] at this
    exact this.2.2.2.1
  · cases h

theorem examineOne_bargains {src : Nat} {d : Declare} {t : State} (h : Bargains true (d.inRange = true) s t) {r : Record}
    (hm : r ∈ s.engine.table) : Bargains true (d.inRange = true) s (examineOne src d t r) := by
  have hof : Of s.engine.table r := .self hm
  unfold examineOne
  split
  · exact h
  · split
    · unfold missOne
      split
      · exact (h.dropRecord _ _).removeRaise _
      · rename_i hmiss
        exact h.putRecord hof (r.follows_same_state r.amount r.revision r.owed _)
          fun _ hf => inOrder_amended (hf.2.1 r hm) (r.inOrder_amountOk (hf.2.1 r hm)) (by omega) r.revision
    · rename_i m hsum
      have hsum' := (Option.filter_eq_some_iff.mp hsum).1
      dsimp only
      have cleared : Bargains true (d.inRange = true) s (putRecord { r with miss := 0 } t) :=
        h.putRecord hof (r.follows_same_state r.amount r.revision r.owed 0)
          fun _ hf => inOrder_amended (hf.2.1 r hm) (r.inOrder_amountOk (hf.2.1 r hm)) (Nat.zero_le 1) r.revision
      split
      · split
        · exact h.resolveRecall _ _ hm 0 (Nat.zero_le _)
        · exact cleared
      · exact h.putRecord hof (follows_settled r _ _ _)
          fun hd hf => inOrder_settledTable (hf.2.1 r hm) (summaryFor_pos hd hsum') _ _

theorem reconcile_bargains (src : Nat) (d : Declare) (s : State) :
    Bargains true (d.inRange = true) s (reconcile src d s) := by
  have h : Bargains true (d.inRange = true) s (recordStep src d (confirmStep src d s)) :=
    (confirmStep_bargains src d s).trans ((Bargains.refl _).foldl _ _ fun _ hm _ hu => examineOne_bargains hu hm)
  unfold reconcile
  dsimp only
  split
  · exact h.answer _ _
  · exact h

/-! ### Outcomes and alarms -/

theorem undoGrant_bargains {b : Bool} {r : Record} (hm : r ∈ s.engine.table) (hs : r.side = .supply) :
    Bargains b c s (undoGrant r s) := by
  unfold undoGrant
  split
  · exact (Bargains.refl s).dropRecord _ _
  · rename_i a v hst
    refine (Bargains.refl s).putRecord (.self hm) (r.follows_supply hs a v _ r.owed r.miss) fun _ hf => ?_
    have h := hf.2.1 r hm
    have ha : amountOk a = true := by
      have := ((r.inOrder_iff).mp h).2.2.2.2.2.2
      rwa [hst] at this
    exact inOrder_active h (by simp [Record.isRecalling, hst]) ha v
  · exact .refl s

/-- A recall deadline that passes. -/
theorem recallExpires_bargains {b : Bool} (id d : Nat) {r : Record} (hr : findSupply s id = some r) :
    Bargains b c (reach d s) (putRecord { r with state := .closing, owed := some .release } (reach d s)) := by
  obtain ⟨hm, -⟩ := findSupply_spec hr
  have hm' : r ∈ (reach d s).engine.table := by simpa using hm
  exact (Bargains.refl _).putRecord (.self hm') (r.follows_closing r.revision _)
    fun _ hf => inOrder_closing (hf.2.1 r hm') r.revision nofun

/-- The path TRIPPED, and nothing else yet. -/
def pathTripped (s : State) : State :=
  { s with path := { s.path with state := .tripped, overdraw := none, shedEnd := none, rampEnd := none } }

/-- The trip, beyond the path itself. -/
theorem tripPath_bargains {b : Bool} (s : State) : Bargains b c (pathTripped s) (tripPath s) :=
  ((Bargains.refl _).closeAllTake.removeAllAsks).setEvent _

/-- The shed of an ALERT, but for the suspension. -/
theorem shed_bargains {b : Bool} (s : State) : Bargains b c s (removeAllAsks (closeAllTake (setEvent .alert s))) :=
  (((Bargains.refl s).setEvent _).closeAllTake).removeAllAsks

end Sys2Proof.Machine
end

section
/-! SUPPORT. What a station can do, one act at a time: each effect is a run of the acts of `Acts`, whose premises say when
each is done. A law that every act keeps is kept by every effect. -/

namespace Sys2Proof.Machine

/-- One of the six link counters counts one more. -/
def Counters.Counts (c d : Counters) : Prop :=
  d = { c with framesSent := bump c.framesSent } ∨ d = { c with collisions := bump c.collisions }
    ∨ d = { c with giveUps := bump c.giveUps } ∨ d = { c with crcErrors := bump c.crcErrors }
    ∨ d = { c with inboundDrops := bump c.inboundDrops } ∨ d = { c with alertsDropped := bump c.alertsDropped }

/-- The station in LEAVING, its rail no longer watched. -/
def leavingNow (s : State) : State := stopRailWatch { s with control := { s.control with station := .leaving } }

/-- One act. H says whether the law of leaving may be relied on, that the final DECLARE comes only in LEAVING and IDLE. -/
inductive Acts (H : Prop) (s : State) : State → Prop
  /-- Time passes. -/
  | clock (n : Nat) : Acts H s (reach n s)
  | restarts (c : ResetCause) (straps : BitVec 2) : Acts H s (resetStation c straps s)
  | bargains {b : Bool} {c : Prop} {t : State} (hb : b = true → s.control.station.speaks = true) (hc : c)
      (h : Bargains b c s t) : Acts H s t
  /-- A DECLARE is reconciled. -/
  | reconciles {f : Frame} {rest : List Frame} {d : Declare} {t : State} (hi : s.link.inbound = f :: rest)
      (hd : f.body = .declare d) (hs : s.control.station.speaks = true)
      (h : Bargains true (d.inRange = true) (consumed rest s) t) : Acts H s t
  | consumes {f : Frame} {rest : List Frame} (hi : s.link.inbound = f :: rest) : Acts H s (consumed rest s)
  /-- A new contract is granted. -/
  | grants (taker asked rid : Nat) (hs : s.control.station.speaks = true) (hr : s.engine.role = .supplier)
      (hp : s.engine.table.length < contractPlaces) (hk : knownPeer s taker = true) (ha : 1 ≤ asked) (hf : 1 ≤ free s) :
      Acts H s (grantNew taker rid asked s)
  /-- A new contract is received. -/
  | contracts {src id amount : Nat} {v : Revision} {a : Ask} (hs : s.control.station.speaks = true)
      (ha : a ∈ s.engine.asks) (hsup : a.supplier = src) (hr : a.raised = none) (hk : knownPeer s src = true)
      (hid : contractIdOk id = true) (hamount : amountOk amount = true) :
      Acts H s (addRecord ⟨src, id, .take, src, amount, v, .active, none, 0⟩ (removeAsk src s))
  | suspends (t : Option Nat) : Acts H s { s with engine := { s.engine with suspendEnd := t } }
  | supplied (b : Bool) : Acts H s { s with engine := { s.engine with supply := b } }
  | builds (d : Bool) (i : Option Nat) : Acts H s { s with engine := { s.engine with declareDue := d, lastInstant := i } }
  /-- An entry changes its fields in their ranges, and no address. -/
  | updates {a : Nat} {g : Peer → Peer}
      (h : ∀ p ∈ s.peers, p.addr = a → (g p).addr = p.addr ∧ (p.inOrder = true → (g p).inOrder = true)) :
      Acts H s (updatePeer a g s)
  | meets {src : Nat} {d : Declare} (hh : s.control.station.hears = true) (hd : d.inRange = true)
      (ha : addressOk src = true) (ho : src ≠ ownAddress s) : Acts H s (createPeer src d s)
  | loses (a : Nat) : Acts H s (losePeer a s)
  | faults (code : FaultCode) (supply : Bool) (h : s.control.station = .loading) :
      Acts H s (enterConfigFault code supply s)
  | adopts {c : StationConfig} {image : Option (List Byte)} (supply : Bool) (h : s.control.station = .loading)
      (hc : checkImage image = .adopt c) : Acts H s (adoptLoad c supply s)
  | joins (incarnation : Byte) (rail : Nat) (h : s.control.station = .listening) : Acts H s (enterJoined incarnation rail s)
  | listens (h : s.control.station = .offline) : Acts H s (enterListening s)
  /-- The station leaves, by a drain or with its final DECLARE due. -/
  | leaves {t : State} (r : Role) (d f : Bool) (h : s.control.station = .joined)
      (ht : Bargains false True (leavingNow s) t) (ha : s.engine.role = .taker → t.engine.asks = []) :
      Acts H s { t with engine := { t.engine with role := r, declareDue := d, finalDue := f } }
  | conflicts (h : s.control.station.hears = true) : Acts H s (enterDuplicate s)
  /-- The station goes OFFLINE, with the outcome of its final DECLARE or out of LISTENING. -/
  | concludes (h : s.control.station = .listening
      ∨ (s.control.station.speaks = true ∨ s.link.current.isSome = true) ∧ (H → s.engine.role = .idle)) :
      Acts H s (enterOffline s)
  | counts {c : Counters} (h : s.link.counters.Counts c) : Acts H s { s with link := { s.link with counters := c } }
  | idles (t : Option Nat) : Acts H s { s with link := { s.link with idleSince := t } }
  | stopsAck (t : Option Nat) : Acts H s { s with link := { s.link with ackOut := none, idleSince := t } }
  | drivesAck {a : AckOut} (o : AckOut) (h : s.link.ackDue = some a) :
      Acts H s { s with link := { s.link with ackDue := none, ackOut := some o, idleSince := none } }
  | decidesAck (a : Option AckOut) (h : s.control.station.speaks = true) :
      Acts H s { s with link := { s.link with ackDue := a } }
  | delivers {f : Frame} (h : s.control.station.speaks = true) (hl : s.link.inbound.length < inboundPlaces)
      (hf : f.cameIn = true) : Acts H s { s with link := { s.link with inbound := s.link.inbound ++ [f] } }
  | attempts (c : Current) {u n : List OutFrame} {p : Option Current} (x : Bool)
      (h : s.control.station.speaks = true ∨ s.link.current.isSome = true) (hu : u.Sublist s.link.urgent)
      (hn : n.Sublist s.link.normal) (hp : p = s.link.preempted ∨ p = none) :
      Acts H s { s with
        engine := { s.engine with changePending := x }
        link := { s.link with urgent := u, normal := n, current := some c, preempted := p, idleSince := none } }
  | backs {c : Current} (d : Current) (h : s.link.current = some c) :
      Acts H s { s with link := { s.link with current := some d } }
  | preempts {c : Current} (h : s.link.current = some c) :
      Acts H s { s with link := { s.link with current := none, preempted := some c } }
  | ceases : Acts H s { s with link := { s.link with current := none } }
  | urges (rail : Nat) (h : s.control.station.speaks = true) (hl : s.link.urgent.length < urgentPlaces) :
      Acts H s { s with link := { s.link with urgent := s.link.urgent ++ [⟨0, .fixed (.alert rail), 0⟩] } }
  | watches {p : PathCtl} (h1 : p.state = s.path.state) (h2 : p.limit = s.path.limit) (h3 : p.overdraw = s.path.overdraw) :
      Acts H s { s with path := p }
  | closes (h : s.path.state = .ramping) : Acts H s { s with path := { s.path with state := .closed, rampEnd := none } }
  | trips (h : s.path.overdraw.isSome = true) : Acts H s (tripPath s)
  | recloses (h : s.path.state = .tripped) (hl : s.control.station ≠ .loading) :
      Acts H s { s with path := { s.path with state := .opened, overdraw := none, shedEnd := none } }
  /-- The host writes, reads, and is given results; only COMMIT queues a request. -/
  | hosts {h : HostPort} (hr : h.requests.length ≤ s.host.requests.length) : Acts H s { s with host := h }
  | commits (h : s.host.requests.length < requestPlaces) :
      Acts H s { s with host := { s.host with requests := s.host.requests ++ [s.host.staged] } }
  | values (d c : Nat) (h : s.control.station = .joined) :
      Acts H s { s with engine := { s.engine with demand := d, capacity := c } }
  | powered : Acts H s { s with control := { s.control with unpowered := false } }
  | roles (r : Role) (h : s.control.station = .joined) (ha : s.engine.role = .taker → s.engine.asks = []) :
      Acts H s { s with engine := { s.engine with role := r } }

/-- A run of acts. -/
abbrev Run (H : Prop) : State → State → Prop := Relation.ReflTransGen (Acts H)

/-- A law that every act keeps is kept by every run. -/
theorem Run.keeps {H : Prop} {P : State → Prop} (k : ∀ s t, Acts H s t → P s → P t) {s t : State} (h : Run H s t)
    (hp : P s) : P t := by
  induction h with
  | refl => exact hp
  | tail _ ha ih => exact k _ _ ha ih

variable {H : Prop} {s : State}

/-! ### Outcomes -/

/-- The frame f, if it is the final DECLARE, is sent by a station in IDLE. -/
def Concluding (H : Prop) (f : OutFrame) (s : State) : Prop := f.isFinal = true → H → s.engine.role = .idle

/-- The owner's part of a SENT report of a frame that was current, run from the state that still had it. -/
theorem ownerSent_run {f : OutFrame} (hf : Concluding H f s) (hc : s.link.current.isSome = true) :
    Run H s (ownerSent f { s with link := { s.link with current := none } }) := by
  have h0 : Run H s { s with link := { s.link with current := none } } := .single .ceases
  unfold ownerSent
  split
  · rename_i final hb
    unfold declareOutcome
    dsimp only
    split
    · rename_i hfin
      -- entry to OFFLINE clears the current frame and the builder
      exact .single (.concludes (.inr ⟨.inr hc, hf (by simp [OutFrame.isFinal, hb, hfin])⟩))
    · exact h0.tail (.builds _ _)
  · split
    · exact h0.tail (.bargains (b := false) (by simp) trivial ((Bargains.refl _).updateAsk _ _ (fun _ => rfl)
        fun _ _ ht x hx _ => ht.2.2.2 x hx))
    · exact h0
  · split
    · rename_i r hr
      obtain ⟨h1, h2, -⟩ := grantRecord_spec hr
      obtain ⟨hm, hs, -⟩ := findSupply_spec h1
      exact h0.tail (.bargains (b := false) (by simp) trivial (confirmGrant_bargains (.refl _) hm hs h2))
    · exact h0
  · exact h0.tail (.watches rfl rfl rfl)
  · exact h0

/-- The owner's part of a GIVEN_UP report of a frame that was current or at the head of the normal queue. -/
theorem ownerGivenUp_run {f : OutFrame} {n : List OutFrame} {c : Option Current} (hf : Concluding H f s)
    (hs : s.control.station.speaks = true ∨ s.link.current.isSome = true)
    (h0 : Run H s { s with link := { s.link with normal := n, current := c } }) :
    Run H s (ownerGivenUp f { s with link := { s.link with normal := n, current := c } }) := by
  unfold ownerGivenUp
  split
  · rename_i final hb
    unfold declareOutcome
    dsimp only
    split
    · rename_i hfin
      exact .single (.concludes (.inr ⟨hs, hf (by simp [OutFrame.isFinal, hb, hfin])⟩))
    · exact h0.tail (.builds _ _)
  · split
    · exact h0.tail (.bargains (b := false) (by simp) trivial ((Bargains.refl _).failAsk _))
    · exact h0
  · split
    · rename_i r hr
      obtain ⟨h1, -, -⟩ := grantRecord_spec hr
      obtain ⟨hm, hs, -⟩ := findSupply_spec h1
      exact h0.tail (.bargains (b := false) (by simp) trivial (undoGrant_bargains hm hs))
    · exact h0
  · exact h0

/-- A current frame reported SENT. -/
theorem reportSent_run {f : OutFrame} (hf : Concluding H f s) (hc : s.link.current.isSome = true) :
    Run H s (reportSent f s) := by
  have h1 : Run H s { s with link := { s.link with
      counters := { s.link.counters with framesSent := bump s.link.counters.framesSent } } } :=
    .single (.counts (.inl rfl))
  exact h1.trans (ownerSent_run hf hc)

/-- A frame reported GIVEN_UP, which was current or at the head of the normal queue. -/
theorem reportGivenUp_run {f : OutFrame} {n : List OutFrame} {c : Option Current} (hf : Concluding H f s)
    (hs : s.control.station.speaks = true ∨ s.link.current.isSome = true)
    (h0 : ∀ u : State, u.link.normal = s.link.normal → u.link.current = s.link.current →
      Run H u { u with link := { u.link with normal := n, current := c } }) :
    Run H s (reportGivenUp f { s with link := { s.link with normal := n, current := c } }) := by
  let t : State := { s with link := { s.link with
    counters := { s.link.counters with giveUps := bump s.link.counters.giveUps } } }
  have h1 : Run H s t := .single (.counts (.inr (.inr (.inl rfl))))
  unfold reportGivenUp
  dsimp only
  split
  · have h2 : Run H s (setEvent .linkGiveup t) := h1.tail (.hosts (le_refl _))
    exact h2.trans (ownerGivenUp_run (s := setEvent .linkGiveup t) hf hs (h0 _ rfl rfl))
  · exact h1.trans (ownerGivenUp_run (s := t) hf hs (h0 _ rfl rfl))

theorem preempt_run : Run H s (preempt s) := by
  unfold preempt
  split
  · rename_i c hc
    split
    · exact .single (.preempts hc)
    · exact .refl
  · exact .refl

theorem current_of_attemptOf {c : Current} {t : Nat} (h : attemptOf s = some (c, t)) :
    s.link.current = some c ∧ c.phase = .attempting t := by
  unfold attemptOf at h
  split at h
  · rename_i x hx
    split at h
    · rename_i hp
      cases h
      exact ⟨hx, hp⟩
    · cases h
  · cases h

/-- The current frame, if it is the final DECLARE, is sent by a station in IDLE. -/
def CurrentConcluding (H : Prop) (s : State) : Prop := ∀ c, s.link.current = some c → Concluding H c.frame s

theorem currentConcluding_of_leavingAgrees (h : H → LeavingAgrees s) : CurrentConcluding H s := fun c hc hf hH =>
  ((h hH).2 (by simp [finalAbout, hc, hf])).2

theorem attemptFails_run (h : CurrentConcluding H s) : Run H s (attemptFails s) := by
  unfold attemptFails
  split
  · exact .refl
  · rename_i c t ha
    obtain ⟨hc, -⟩ := current_of_attemptOf ha
    split
    · exact (Relation.ReflTransGen.single
        (.backs { c with failures := c.failures + 1, phase := .backoff } hc)).trans preempt_run
    · refine reportGivenUp_run (n := s.link.normal) (c := none) (h c hc) (.inr (by simp [hc])) fun u hn hcu => ?_
      rw [← hn]
      exact .single .ceases

/-! ### Receptions -/

theorem hear_run (src : Nat) : Run H s (hear src s) :=
  .single (.updates fun _ _ _ => ⟨rfl, fun h => by simpa [Peer.inOrder] using h⟩)

/-- The entry that a DECLARE in range makes is in order. -/
theorem newPeer_inOrder {src : Nat} {d : Declare} (hd : d.inRange = true) (ha : addressOk src = true) (s : State) :
    (newPeer src d s).inOrder = true := by
  obtain ⟨hfields, -⟩ := Bool.and_eq_true_iff.mp hd
  obtain ⟨-, hperiod, hperiod', hcapacity, hspare, hunmet⟩ := of_decide_eq_true hfields
  unfold fullScale at hcapacity hspare hunmet
  simp [Peer.inOrder, newPeer, ha, hperiod, hperiod', hcapacity, hspare, hunmet]

@[simp] theorem losePeer_control (a : Nat) (s : State) : (losePeer a s).control = s.control := by
  obtain ⟨_, _, _, e⟩ := losePeer_eq a s
  rw [e]
@[simp] theorem losePeer_current (a : Nat) (s : State) : (losePeer a s).link.current = s.link.current := by
  obtain ⟨_, _, _, e⟩ := losePeer_eq a s
  rw [e]
@[simp] theorem losePeer_role (a : Nat) (s : State) : (losePeer a s).engine.role = s.engine.role := by
  obtain ⟨_, _, _, e⟩ := losePeer_eq a s
  rw [e]

theorem declareStage_run {src : Nat} {d : Declare} (hh : s.control.station.hears = true) (hd : d.inRange = true)
    (ha : addressOk src = true) (ho : src ≠ ownAddress s) : Run H s (declareStage src d s) := by
  unfold declareStage
  split
  · split
    · exact .refl
    · exact .single (.meets hh hd ha ho)
  · split
    · exact .single (.loses src)
    · split
      · exact .single (.updates fun p _ hp => ⟨hp.symm, fun _ => newPeer_inOrder hd ha s⟩)
      · refine (Relation.ReflTransGen.single (.loses src)).tail (.meets (by simpa using hh) hd ha ?_)
        simpa [ownAddress, cfg] using ho

theorem deliverBroadcast_run {f : Frame} (hf : f.cameIn = true) : Run H s (deliverBroadcast f s) := by
  unfold deliverBroadcast
  split
  · rename_i hs
    split
    · rename_i hl
      exact .single (.delivers hs hl hf)
    · exact .single (.counts (.inr (.inr (.inr (.inr (.inl rfl))))))
  · exact .refl

theorem declareReceived_run {f : Frame} {d : Declare} (hh : s.control.station.hears = true) (hb : f.body = .declare d)
    (ha : addressOk f.src = true) (ho : f.src ≠ ownAddress s) : Run H s (declareReceived f d s) := by
  unfold declareReceived
  split
  · rename_i hd
    have h1 : Run H s (declareStage f.src d s) := declareStage_run hh hd ha ho
    dsimp only
    split
    · exact h1
    · exact h1.trans (deliverBroadcast_run (by simp [Frame.cameIn, hb, hd]))
  · exact .refl

theorem deliverDirected_run {f : Frame} (hb : f.body.isDirected = true) : Run H s (deliverDirected f s) := by
  have hcame : f.cameIn = true := by
    cases h : f.body <;> simp_all [Frame.cameIn, Payload.isDirected]
  unfold deliverDirected
  split
  · rename_i hs
    split
    · exact .refl
    · split
      · rename_i hl
        dsimp only
        generalize some (AckOut.mk f.src f.seq (s.now + ackDelay)) = o
        have h1 : Run H s { s with link := { s.link with ackDue := o } } := .single (.decidesAck _ hs.2)
        split
        · exact h1
        · have h2 : Run H s { s with link := { s.link with ackDue := o, inbound := s.link.inbound ++ [f] } } :=
            h1.tail (.delivers (s := { s with link := { s.link with ackDue := o } }) hs.2 hl hcame)
          exact h2.tail (.updates fun _ _ _ => ⟨rfl, fun h => by simpa [Peer.inOrder] using h⟩)
      · exact .single (.counts (.inr (.inr (.inr (.inr (.inl rfl))))))
  · exact .refl

theorem receptionEnd_run (r : Reception) : Run H s (receptionEnd r s) := by
  unfold receptionEnd
  split
  · exact .refl
  · exact .single (.clock _)

@[simp] theorem receptionEnd_control (r : Reception) (s : State) : (receptionEnd r s).control = s.control := by
  unfold receptionEnd; split <;> simp
@[simp] theorem receptionEnd_engine (r : Reception) (s : State) : (receptionEnd r s).engine = s.engine := by
  unfold receptionEnd; split <;> simp
@[simp] theorem receptionEnd_current (r : Reception) (s : State) :
    (receptionEnd r s).link.current = s.link.current := by
  unfold receptionEnd; split <;> simp

/-- The current frame is as it was, with the role it is sent in, or it is gone. -/
def Calm (s t : State) : Prop :=
  t.link.current = none ∨ t.link.current = s.link.current ∧ t.engine.role = s.engine.role

theorem Calm.concluding {t : State} (h : Calm s t) (k : CurrentConcluding H s) : CurrentConcluding H t := by
  rintro c hc
  rcases h with h | ⟨h1, h2⟩
  · simp [h] at hc
  · intro hf hH
    rw [h2]
    exact k c (h1 ▸ hc) hf hH

/-- A reception runs, as what it applies runs from every state of the same Station Control. -/
theorem onReception_run (r : Reception) {apply : State → State} (fails : Bool) (hcc : CurrentConcluding H s)
    (h : ∀ u : State, u.control = s.control → u.link.current = s.link.current → u.engine = s.engine →
      Run H u (apply u) ∧ (fails = true → Calm u (apply u))) :
    Run H s (onReception r apply fails s) := by
  have h1 : Run H s (lineIdle (receptionEnd r s)) := (receptionEnd_run r).tail (.idles _)
  obtain ⟨hrun, hcalm⟩ := h (lineIdle (receptionEnd r s)) (by simp) (by simp) (by simp)
  have hcc' : CurrentConcluding H (lineIdle (receptionEnd r s)) := by
    simpa [CurrentConcluding, Concluding] using hcc
  unfold onReception
  dsimp only
  split
  · rename_i hf
    simp only [Bool.and_eq_true] at hf
    exact (h1.trans hrun).trans (attemptFails_run ((hcalm hf.1).concluding hcc'))
  · exact h1.trans hrun

theorem onFrame_run {f : Frame} {rest : State → State} {fails : Bool} (hh : s.control.station.hears = true)
    (h : f.src ≠ ownAddress s → Run H (hear f.src s) (rest (hear f.src s))
      ∧ (fails = true → Calm s (rest (hear f.src s)))) :
    Run H s (onFrame f rest s) ∧ (fails = true → Calm s (onFrame f rest s)) := by
  unfold onFrame
  split
  · refine ⟨.single (.conflicts hh), fun _ => .inl ?_⟩
    simp only [enterDuplicate, setEvent_link, completeLong]
    split <;> rfl
  · rename_i ho
    obtain ⟨h1, h2⟩ := h ho
    exact ⟨(hear_run f.src).trans h1, h2⟩

/-- A valid frame comes from a station address (R172, check 4). -/
theorem addressOk_of_classify_valid {r : Reception} {f : Frame} (h : classify r = .valid f) : addressOk f.src = true := by
  obtain ⟨hearly, hlen, -, -, -⟩ := checks_of_classify_valid h
  have h3 : 3 < r.bytes.length := by omega
  have hsrc : f.src = (r.bytes.getD 2 0).toNat := by
    simp only [classify] at h
    obtain ⟨-, h⟩ := not_and_eq_of_ite_eq h (by simp)
    obtain ⟨-, h⟩ := not_and_eq_of_ite_eq h (by simp)
    obtain ⟨-, h⟩ := not_and_eq_of_ite_eq h (by simp)
    obtain ⟨-, h⟩ := not_and_eq_of_ite_eq h (by simp)
    obtain ⟨-, h⟩ := not_and_eq_of_ite_eq h (by simp)
    split at h
    · cases h
    · cases h; rfl
  simp only [earlyChecksPass, Bool.and_eq_true, decide_eq_true h3, Bool.not_true, Bool.false_or, decide_eq_true_eq]
    at hearly
  simp only [addressOk, hsrc, decide_eq_true_eq]
  exact hearly.1.1.2.1

theorem deliverBroadcast_calm (f : Frame) (s : State) : Calm s (deliverBroadcast f s) := by
  unfold deliverBroadcast
  split
  · split <;> exact .inr ⟨rfl, rfl⟩
  · exact .inr ⟨rfl, rfl⟩

theorem deliverDirected_calm (f : Frame) (s : State) : Calm s (deliverDirected f s) := by
  unfold deliverDirected
  split
  · split
    · exact .inr ⟨rfl, rfl⟩
    · split
      · dsimp only
        split <;> exact .inr ⟨rfl, rfl⟩
      · exact .inr ⟨rfl, rfl⟩
  · exact .inr ⟨rfl, rfl⟩

theorem declareReceived_calm (f : Frame) (d : Declare) (s : State) : Calm s (declareReceived f d s) := by
  have stage : (declareStage f.src d s).link.current = s.link.current
      ∧ (declareStage f.src d s).engine.role = s.engine.role := by
    unfold declareStage
    split
    · split <;> exact ⟨rfl, rfl⟩
    · split
      · simp
      · split
        · exact ⟨rfl, rfl⟩
        · simp
  unfold declareReceived
  split
  · dsimp only
    split
    · exact .inr stage
    · rcases deliverBroadcast_calm f (declareStage f.src d s) with h | h
      · exact .inl h
      · exact .inr ⟨h.1.trans stage.1, h.2.trans stage.2⟩
  · exact .inr ⟨rfl, rfl⟩

theorem receiveDeclareEffect_run (r : Reception) (h : CurrentConcluding H s) : Run H s (receiveDeclareEffect r s) := by
  unfold receiveDeclareEffect
  split
  · rename_i f hv
    split
    · rename_i d hb
      split
      · rename_i hh
        refine onReception_run r true h fun u hc _ _ => onFrame_run (hc ▸ hh) fun ho => ⟨?_, fun _ => ?_⟩
        · exact declareReceived_run (hc ▸ hh) hb (addressOk_of_classify_valid hv) ho
        · exact declareReceived_calm f d (hear f.src u)
      · exact .refl
    · exact .refl
  · exact .refl

theorem receiveAlertEffect_run (r : Reception) (h : CurrentConcluding H s) : Run H s (receiveAlertEffect r s) := by
  unfold receiveAlertEffect
  split
  · rename_i f hv
    split
    · rename_i x hb
      split
      · rename_i hh
        refine onReception_run r true h fun u hc _ _ => onFrame_run (hc ▸ hh) fun ho => ⟨?_, fun _ => ?_⟩
        · have h1 : Run H (hear f.src u) { hear f.src u with path := { u.path with lastAlert := some u.now } } :=
            .single (.watches rfl rfl rfl)
          exact h1.trans (deliverBroadcast_run (by simp [Frame.cameIn, hb]))
        · exact deliverBroadcast_calm f _
      · exact .refl
    · exact .refl
  · exact .refl

theorem receiveAckEffect_run (r : Reception) (h : CurrentConcluding H s) : Run H s (receiveAckEffect r s) := by
  unfold receiveAckEffect
  split
  · rename_i f hv
    split
    · split
      · rename_i hh
        dsimp only
        generalize (inWindow r (receptionEnd r s) && ackMatches f (receptionEnd r s) && f.src != ownAddress s) = m
        refine onReception_run r _ h fun u hc hcu he => onFrame_run (hc ▸ hh) fun ho => ⟨?_, fun hm => ?_⟩
        · split
          · unfold ackArrives
            split
            · rename_i c hcur
              have hcur' : s.link.current = some c := hcu ▸ hcur
              have hcur'' : u.link.current = s.link.current := hcu
              refine reportSent_run (fun hf hH => ?_) (by simp [hcur'', hcur'])
              rw [hear_engine, he]
              exact h c hcur' hf hH
            · exact .refl
          · exact .refl
        · simp only [Bool.not_eq_true'] at hm
          simp only [hm, Bool.false_eq_true, ↓reduceIte]
          exact .inr ⟨rfl, rfl⟩
      · exact .refl
    · exact .refl
  · exact .refl

theorem receiveDirectedEffect_run (r : Reception) (h : CurrentConcluding H s) : Run H s (receiveDirectedEffect r s) := by
  unfold receiveDirectedEffect
  split
  · rename_i f hv
    split
    · rename_i hh
      simp only [Bool.and_eq_true] at hh
      exact onReception_run r true h fun u hc _ _ => onFrame_run (hc ▸ hh.2) fun ho =>
        ⟨deliverDirected_run hh.1, fun _ => deliverDirected_calm f (hear f.src u)⟩
    · exact .refl
  · exact .refl

theorem malformedEffect_run (r : Reception) (h : CurrentConcluding H s) : Run H s (malformedEffect r s) := by
  unfold malformedEffect
  split
  · exact onReception_run r true h fun u _ _ _ =>
      ⟨.single (.counts (.inr (.inr (.inr (.inl rfl))))), fun _ => .inr ⟨rfl, rfl⟩⟩
  · exact .refl

theorem fragmentEffect_run (r : Reception) (h : CurrentConcluding H s) : Run H s (fragmentEffect r s) := by
  unfold fragmentEffect
  split
  · exact onReception_run r true h fun u _ _ _ => ⟨.refl, fun _ => .inr ⟨rfl, rfl⟩⟩
  · exact .refl

/-! ### Requests -/

/-- A request that may be taken finds LOADING ended. -/
theorem not_loading_of_takeable {q : Request} (h : takeable s = some q) : s.control.station ≠ .loading := by
  unfold takeable at h
  split at h
  · cases h
  · split at h
    · rename_i hc; exact hc.1
    · cases h

theorem removeHead_run : Run H s (removeHead s) := .single (.hosts (by simp))

theorem finish_run {t : State} (q : Request) (code : ResultCode) (k : Run H s t) : Run H s (finish q code t) :=
  k.tail (.hosts (le_refl _))

theorem becomeLong_run {t : State} (k : LongKind) (q : Request) (h : Run H s t) : Run H s (becomeLong k q t) :=
  h.tail (.hosts (le_refl _))

theorem completeLong_run {t : State} (c : ResultCode) (h : Run H s t) : Run H s (completeLong c t) := by
  unfold completeLong
  split
  · exact h
  · exact h.tail (.hosts (le_refl _))

theorem beginDrainTake_run (x : Target) (u : Purpose) (hj : s.control.station = .joined) :
    Run H s (beginDrainTake x u s) := by
  have hb : Bargains false True s (closeAllTake (removeAllAsks s)) := (Bargains.refl s).removeAllAsks.closeAllTake
  exact (Relation.ReflTransGen.single (.bargains (by simp) trivial hb)).tail
    (.roles _ (by rw [hb.control]; exact hj) fun _ => closeAllTake_asks_nil (removeAllAsks_asks s))

theorem beginDrainSupply_run (x : Target) (u : Purpose) (hj : s.control.station = .joined)
    (hr : s.engine.role = .supplier) : Run H s (beginDrainSupply x u s) := by
  have hb : Bargains false True s (recallAll s) := (Bargains.refl s).recallAll
  exact (Relation.ReflTransGen.single (.bargains (by simp) trivial hb)).tail
    (.roles _ (by rw [hb.control]; exact hj) fun h => by rw [hb.role, hr] at h; cases h)

theorem changeRole_run (q : Request) (x : Target) (hj : s.control.station = .joined) : Run H s (changeRole q x s) := by
  have move (r : Role) (hr : s.engine.role ≠ .taker) : Run H s { s with engine := { s.engine with role := r } } :=
    .single (.roles r hj fun h => absurd h hr)
  have overtake (left : Target) (again : Target → Purpose → Role) (hr : s.engine.role ≠ .taker) :
      Run H s (overtakeDrain q x left again s) := by
    unfold overtakeDrain
    split
    · exact finish_run _ _ (completeLong_run _ (move _ hr))
    · split
      · exact finish_run _ _ .refl
      · exact becomeLong_run _ _ (completeLong_run _ (move _ hr))
  unfold changeRole
  split
  · exact finish_run _ _ .refl
  · exact finish_run _ _ .refl
  · exact finish_run _ _ .refl
  · rename_i hr; exact finish_run _ _ (move _ (by simp [hr]))
  · rename_i hr
    split
    · exact finish_run _ _ .refl
    · exact finish_run _ _ (move _ (by simp [hr]))
  · exact becomeLong_run _ _ (beginDrainTake_run _ _ hj)
  · split
    · exact finish_run _ _ .refl
    · exact becomeLong_run _ _ (beginDrainTake_run _ _ hj)
  · rename_i hr; exact becomeLong_run _ _ (beginDrainSupply_run _ _ hj hr)
  · rename_i hr; exact becomeLong_run _ _ (beginDrainSupply_run _ _ hj hr)
  · rename_i hr; exact overtake _ _ (by simp [hr])
  · rename_i hr; exact overtake _ _ (by simp [hr])

theorem beginLeaving_run (q : Request) (hj : s.control.station = .joined) : Run H s (beginLeaving q s) := by
  have start (r : Role) {t : State} (d f : Bool) (ht : Bargains false True (leavingNow s) t)
      (ha : s.engine.role = .taker → t.engine.asks = []) :
      Run H s { t with engine := { t.engine with role := r, declareDue := d, finalDue := f } } :=
    .single (.leaves r d f hj ht ha)
  unfold beginLeaving
  dsimp only
  split
  · rename_i hr
    have hr : s.engine.role = .idle := hr
    exact becomeLong_run _ _ (start (leavingNow s).engine.role true true (.refl _) (by simp [hr]))
  · have hb : Bargains false True (leavingNow s) (closeAllTake (removeAllAsks (leavingNow s))) :=
      (Bargains.refl _).removeAllAsks.closeAllTake
    exact becomeLong_run _ _ (start (.drainingTake .idle .leaving) _ _ hb
      fun _ => closeAllTake_asks_nil (removeAllAsks_asks _))
  · rename_i hr
    have hr : s.engine.role = .supplier := hr
    exact becomeLong_run _ _ (start (.drainingSupply .idle .leaving) _ _ (Bargains.refl (leavingNow s)).recallAll
      (by simp [hr]))
  · rename_i hr
    have hr : s.engine.role = .drainingTake _ _ := hr
    exact becomeLong_run _ _ (completeLong_run _ (start (.drainingTake .idle .leaving) _ _ (.refl _) (by simp [hr])))
  · rename_i hr
    have hr : s.engine.role = .drainingSupply _ _ := hr
    exact becomeLong_run _ _ (completeLong_run _ (start (.drainingSupply .idle .leaving) _ _ (.refl _) (by simp [hr])))

theorem enterOffline_run (h : s.control.station = .listening) : Run H s (enterOffline s) := .single (.concludes (.inl h))

@[simp] theorem completeLong_control (c : ResultCode) (s : State) : (completeLong c s).control = s.control := by
  unfold completeLong; split <;> rfl

/-- A request taken runs. -/
theorem judge_run (q : Request) (hl : s.control.station ≠ .loading) : Run H s (judge q s) := by
  have refused (code : ResultCode) : Run H s (finish q code s) := finish_run q code .refl
  unfold judge
  split
  · unfold takeSetDemand
    split
    · exact refused _
    · split
      · exact refused _
      · rename_i hj
        exact finish_run _ _ (.single (.values q.value s.engine.capacity (by simpa using hj)))
  · unfold takeSetCapacity
    split
    · exact refused _
    · split
      · exact refused _
      · rename_i hj
        exact finish_run _ _ (.single (.values s.engine.demand q.value (by simpa using hj)))
  · unfold takeSetRole
    split
    · exact refused _
    · split
      · exact refused _
      · rename_i hj
        exact changeRole_run q _ (by simpa using hj)
  · unfold takeLeave
    split
    · rename_i hj; exact beginLeaving_run q hj
    · rename_i hj
      split
      · exact finish_run _ _ ((completeLong_run .aborted .refl).trans (enterOffline_run (by simpa using hj)))
      · exact refused _
    · exact refused _
  · unfold takeRejoin
    split
    · rename_i ho
      exact (becomeLong_run .rejoin q .refl).tail (.listens ho)
    · exact refused _
  · unfold takeReclose
    split
    · rename_i ht; exact finish_run _ _ (.single (.recloses ht hl))
    · exact refused _
  · unfold takeClearUnpowered
    split
    · exact finish_run _ _ (.single .powered)
    · exact refused _
  · exact .single (.hosts (le_refl _))
  · exact .single (.hosts (le_refl _))
  · exact refused _

theorem takeHead_run : Run H s (takeHead s) := by
  unfold takeHead
  split
  · rename_i q hq
    split
    · exact .refl
    · exact removeHead_run.trans (judge_run q (by simpa using not_loading_of_takeable hq))
  · exact .refl

theorem takeOf_run (p : Nat → Bool) : Run H s (takeOf p s) := by
  unfold takeOf
  split
  · rename_i q hq
    split
    · exact removeHead_run.trans (judge_run q (by simpa using not_loading_of_takeable hq))
    · exact .refl
  · exact .refl

/-! ### Writes -/

theorem writeByte_run (a : Nat) (b : Byte) (masked : Bool) : Run H s (writeByte a b masked s) := by
  unfold writeByte
  split
  case h_11 =>
    unfold commitStaged
    split
    · rename_i h; exact .single (.commits h)
    · exact .single (.hosts (le_refl _))
  case h_13 => exact .refl
  all_goals exact .single (.hosts (le_refl _))

theorem writeBytes_run (bs : List Byte) (masked served : Bool) : Run H s (writeBytes bs masked served s) := by
  induction bs generalizing s masked served with
  | nil =>
    unfold writeBytes
    split
    · exact takeHead_run
    · exact .refl
  | cons b bs ih =>
    have h1 : Run H s { writeByte s.host.pointer.toNat b masked s with
        host := { (writeByte s.host.pointer.toNat b masked s).host with pointer := nextPointer s.host.pointer } } :=
      (writeByte_run s.host.pointer.toNat b masked).tail (.hosts (le_refl _))
    exact h1.trans (ih _ _)

theorem writeTransaction_run (bs : List Byte) : Run H s (writeTransaction bs s) := by
  unfold writeTransaction
  split
  · exact .refl
  · exact .single (.hosts (le_refl _))
  · exact (Relation.ReflTransGen.single (.hosts (le_refl _))).trans (writeBytes_run _ _ _)

/-! ### The load and the listen window -/

theorem loadDone_run (image : Option (List Byte)) (supply : Bool) : Run H s (loadDone image supply s) := by
  unfold loadDone
  split
  · rename_i hl _
    refine Relation.ReflTransGen.trans ?_ takeHead_run
    split
    · exact .single (.faults _ _ hl)
    · rename_i c hc
      split at hc
      · cases hc
      · exact .single (.adopts supply hl hc)
  · exact .refl

theorem loadTimedOut_run (supply : Bool) : Run H s (loadTimedOut supply s) := by
  unfold loadTimedOut
  split
  · rename_i t hl _
    exact ((Relation.ReflTransGen.single (.clock (t + memoryReadTime))).tail
      (.faults _ _ (by simpa using hl))).trans takeHead_run
  · exact .refl

theorem listenDone_run (incarnation : Byte) (rail : Nat) : Run H s (listenDone incarnation rail s) := by
  unfold listenDone
  split
  · rename_i t hl _
    exact (Relation.ReflTransGen.single (.clock t)).tail (.joins _ _ (by simpa using hl))
  · exact .refl

/-! ### Transmission -/

theorem beginAttempt_run (c : Current) {u n : List OutFrame} {p : Option Current}
    (h : s.control.station.speaks = true ∨ s.link.current.isSome = true) (hu : u.Sublist s.link.urgent)
    (hn : n.Sublist s.link.normal) (hp : p = s.link.preempted ∨ p = none) :
    Run H s (beginAttempt c { s with link := { s.link with urgent := u, normal := n, preempted := p } }) := by
  unfold beginAttempt
  dsimp only
  split
  · exact .single (.attempts _ false h hu hn hp)
  · exact .single (.attempts _ s.engine.changePending h hu hn hp)

theorem makeCurrent_run (f : OutFrame) {u n : List OutFrame} (h : s.control.station.speaks = true)
    (hu : u.Sublist s.link.urgent) (hn : n.Sublist s.link.normal) :
    Run H s (makeCurrent f { s with link := { s.link with urgent := u, normal := n } }) := by
  unfold makeCurrent
  dsimp only
  split
  · have h1 : Run H s (updatePeer f.dst (fun p => { p with nextOut := p.nextOut + 1 }) s) :=
      .single (.updates fun _ _ _ => ⟨rfl, fun h => by simpa [Peer.inOrder] using h⟩)
    exact h1.trans (beginAttempt_run (s := updatePeer f.dst (fun p => { p with nextOut := p.nextOut + 1 }) s) _
      (p := s.link.preempted) (.inl h) hu hn (.inl rfl))
  · exact beginAttempt_run (s := s) _ (p := s.link.preempted) (.inl h) hu hn (.inl rfl)

/-- What the link may send. -/
theorem candidate_spec {c : Candidate} (h : candidate s = some c) :
    s.link.current = none ∧ match c with
      | .urgent f rest => s.link.urgent = f :: rest
      | .preempted p => s.link.preempted = some p
      | .normal f rest => s.link.normal = f :: rest := by
  unfold candidate at h
  split at h
  · cases h
  · rename_i hc
    refine ⟨by simpa using hc, ?_⟩
    split at h
    · cases h; assumption
    · cases h; assumption
    · cases h; assumption
    · cases h

theorem takeCandidate_run {c : Candidate} (h : s.control.station.speaks = true) (hc : candidate s = some c)
    (hl : H → LeavingAgrees s) : Run H s (takeCandidate c s) := by
  obtain ⟨hcur, hc⟩ := candidate_spec hc
  cases c with
  | urgent f rest =>
    have hc : s.link.urgent = f :: rest := hc
    exact makeCurrent_run f (n := s.link.normal) h (hc ▸ List.sublist_cons_self ..) (.refl _)
  | preempted p =>
    exact beginAttempt_run p (u := s.link.urgent) (n := s.link.normal) (.inl h) (.refl _) (.refl _) (.inr rfl)
  | normal f rest =>
    have hc : s.link.normal = f :: rest := hc
    unfold takeCandidate
    dsimp only
    split
    · refine reportGivenUp_run (n := rest) (c := s.link.current)
        (fun hf hH => ((hl hH).2 (by simp [finalAbout, hc, hf])).2) (.inl h) fun u hn hcu => ?_
      refine .single (.bargains (b := false) (c := True) (by simp) trivial
        ((Bargains.refl u).plain ?_ rfl rfl (.of_sublist ?_)))
      · simp [aside, hcu]
      · rw [hn, hc]; exact List.sublist_cons_self ..
    · exact makeCurrent_run f (u := s.link.urgent) h (.refl _) (hc ▸ List.sublist_cons_self ..)

theorem LeavingAgrees.reach (n : Nat) (h : LeavingAgrees s) : LeavingAgrees (reach n s) := by
  simpa [LeavingAgrees, finalAbout] using h

theorem quietGapEnds_run (k : Nat) (hl : H → LeavingAgrees s) : Run H s (quietGapEnds k s) := by
  unfold quietGapEnds
  split
  · rename_i c t hc _
    split
    · rename_i h
      exact (Relation.ReflTransGen.single (.clock (t + c.gap k))).trans
        (takeCandidate_run (by simpa using h.1) (by simpa [candidate] using hc) fun hH => (hl hH).reach _)
    · exact .refl
  · exact .refl

theorem retryGapEnds_run (k : Nat) : Run H s (retryGapEnds k s) := by
  unfold retryGapEnds
  split
  · rename_i c t hc _
    generalize (t + if c.frame.isUrgent = true then urgentRetryGap k else normalGap k) = n
    generalize (if c.frame.isUrgent = true then 7 else 15) = m
    split
    · exact (Relation.ReflTransGen.single (.clock n)).trans (beginAttempt_run (s := Machine.reach n s) c
        (u := (Machine.reach n s).link.urgent) (n := (Machine.reach n s).link.normal)
        (p := (Machine.reach n s).link.preempted) (.inr (by simp [hc])) (.refl _) (.refl _) (.inl rfl))
    · exact .refl
  · exact .refl

theorem ackBegins_run : Run H s (ackBegins s) := by
  unfold ackBegins
  split
  · rename_i a ha
    exact (Relation.ReflTransGen.single (.clock a.start)).tail (.drivesAck (a := a) _ (by simpa using ha))
  · exact .refl

theorem countCollision_run : Run H s (countCollision s) := by
  have h : Run H s { s with link := { s.link with
      counters := { s.link.counters with collisions := bump s.link.counters.collisions } } } :=
    .single (.counts (.inr (.inl rfl)))
  exact h.tail (.idles _)

theorem collide_run (h : CurrentConcluding H s) : Run H s (collide s) := by
  unfold collide
  split
  · have h1 : Run H s { s with link := { s.link with ackOut := none } } := .single (.stopsAck s.link.idleSince)
    exact h1.trans countCollision_run
  · split
    · split
      · exact countCollision_run.trans (attemptFails_run h)
      · exact .refl
    · exact .refl

theorem broadcastEnds_run (h : CurrentConcluding H s) : Run H s (broadcastEnds s) := by
  unfold broadcastEnds
  split
  · rename_i c t ha
    obtain ⟨hc, -⟩ := current_of_attemptOf ha
    split
    · exact .refl
    · refine ((Relation.ReflTransGen.single (.clock (c.txEnd t))).tail (.idles (some (c.txEnd t)))).trans
        (reportSent_run (fun hf hH => ?_) ?_)
      · simpa using h c hc hf hH
      · simp [hc]
  · exact .refl

theorem windowCloses_run (h : CurrentConcluding H s) : Run H s (windowCloses s) := by
  unfold windowCloses
  split
  · rename_i c t ha
    split
    · refine ((Relation.ReflTransGen.single (.clock (c.txEnd t + ackWindow))).tail (.idles (some (c.txEnd t)))).trans
        (attemptFails_run ?_)
      simpa [CurrentConcluding, Concluding] using h
    · exact .refl
  · exact .refl

/-! ### Consumption -/

theorem consume_run (k : Nat) (act : Frame → State → State)
    (h : ∀ f rest, s.control.station.speaks = true → s.link.inbound = f :: rest → f.body.kind = k →
      accepted f (consumed rest s) = true → Run H s (act f (consumed rest s))) : Run H s (consume k act s) := by
  rcases consume_cases k act s with e | ⟨f, rest, hs, hi, hk, e | ⟨ha, e⟩⟩
  · rw [e]
  · rw [e]; exact .single (.consumes (f := f) hi)
  · rw [e]; exact h f rest hs hi hk ha

/-- A frame whose handling is bargaining. -/
theorem consume_run_of_bargains {k : Nat} {act : Frame → State → State}
    (h : ∀ f u, f.body.kind = k → accepted f u = true → Bargains true True u (act f u)) : Run H s (consume k act s) :=
  consume_run k act fun _ rest hs hi hk ha =>
    have h0 : Run H s (consumed rest s) := .single (.consumes hi)
    h0.tail (.bargains (fun _ => hs) trivial (h _ _ hk ha))

/-- A free amount that meets a minimum is positive. -/
theorem one_le_free {n : Nat} (h1 : 1 ≤ n) (h : (n : Int) ≤ free s) : 1 ≤ free s := by omega

theorem consumeAsk_run : Run H s (consume 2 askConsumed s) := by
  refine consume_run 2 askConsumed fun f rest hs hi hk ha => ?_
  have h0 : Run H s (consumed rest s) := .single (.consumes hi)
  have hs' : (consumed rest s).control.station.speaks = true := hs
  have answers (p : Payload) : Run H s (answer f.src p (consumed rest s)) :=
    h0.tail (.bargains (fun _ => hs') trivial ((Bargains.refl (c := True) _).answer _ _))
  unfold askConsumed
  split
  · rename_i rid asked minimum id hb
    obtain ⟨hknown, hrange⟩ := accepted_spec ha (by simp [hb, Payload.isBroadcast])
    rw [hb] at hrange
    simp only [Payload.inRange, decide_eq_true_eq] at hrange
    dsimp only
    split
    · exact answers _
    · exact answers _
    · rename_i hg
      obtain ⟨hrole, hplace, hfree, hrec⟩ := judgeAsk_grant hg
      split
      · rename_i r hr
        obtain ⟨hm, hside, -, -⟩ := concernedRecord_spec hr
        exact h0.tail (.bargains (fun _ => hs') trivial (grantRaise_bargains (c := True) hm hside (hrec r hr).1))
      · rename_i hr
        exact h0.tail (.grants _ _ rid hs' hrole (hplace hr) hknown hrange.2.2.1 (one_le_free hrange.2.2.2.2.1 hfree))
  · exact h0

theorem consumeGrant_run : Run H s (consume 3 grantConsumed s) := by
  refine consume_run 3 grantConsumed fun f rest hs hi hk ha => ?_
  have h0 : Run H s (consumed rest s) := .single (.consumes hi)
  have hs' : (consumed rest s).control.station.speaks = true := hs
  by_cases hnew : ∃ rid id amount v a, f.body = .grant rid id amount v
      ∧ matchingAsk (consumed rest s) f.src rid = some a ∧ a.raised = none
  · obtain ⟨rid, id, amount, v, a, hb, hm, hr⟩ := hnew
    obtain ⟨hknown, hrange⟩ := accepted_spec ha (by simp [hb, Payload.isBroadcast])
    rw [hb] at hrange
    simp only [Payload.inRange, decide_eq_true_eq] at hrange
    obtain ⟨hmem, hsup, -⟩ := matchingAsk_spec hm
    have e : grantConsumed f (consumed rest s)
        = addRecord ⟨f.src, id, .take, f.src, amount, v, .active, none, 0⟩ (removeAsk f.src (consumed rest s)) := by
      simp [grantConsumed, hb, hm, hr]
    rw [e]
    exact h0.tail (.contracts hs' hmem hsup hr hknown (by simp [contractIdOk, hrange]) (by simp [amountOk, hrange]))
  · refine h0.tail (.bargains (fun _ => hs') trivial (grantConsumed_bargains (c := True) f _ ?_ ?_))
    · exact (accepted_spec ha (by cases hb : f.body <;> simp_all [Payload.kind, Payload.isBroadcast])).2
    · exact fun rid id amount v a hb hm hr => hnew ⟨rid, id, amount, v, a, hb, hm, hr⟩

theorem consumeDeclare_run : Run H s (consume 1 declareConsumed s) := by
  refine consume_run 1 declareConsumed fun f rest hs hi hk ha => ?_
  unfold declareConsumed
  split
  · rename_i d hb
    exact .single (.reconciles hi hb hs (reconcile_bargains f.src d _))
  · exact .single (.consumes hi)

theorem alertEffect_run : Run H s (alertEffect s) := by
  unfold alertEffect
  dsimp only
  split
  · have h1 : Run H s (removeAllAsks (closeAllTake (setEvent .alert s))) :=
      .single (.bargains (b := false) (c := True) (by simp) trivial (shed_bargains s))
    exact h1.tail (.suspends _)
  · exact .single (.hosts (le_refl _))

/-! ### Timers and the path -/

theorem tripPath_run (n : Nat) (h : s.path.overdraw.isSome = true) : Run H s (tripPath (reach n s)) :=
  (Relation.ReflTransGen.single (.clock n)).tail (.trips (by simpa using h))

theorem tripNow_run : Run H s (tripNow s) := by
  unfold tripNow
  split
  · rename_i h
    exact tripPath_run _ (by simp [h])
  · exact .refl

theorem windowEnds_run : Run H s (windowEnds s) := by
  unfold windowEnds
  split
  · rename_i w _
    have h1 : Run H s { reach w s with path := { (reach w s).path with shedEnd := none } } :=
      (Relation.ReflTransGen.single (.clock w)).tail (.watches rfl rfl rfl)
    dsimp only
    split
    · rename_i ho
      split
      · exact h1.tail (.trips (by simpa using congrArg Option.isSome ho))
      · exact h1
    · exact h1
  · exact .refl

theorem queueAlert_run (rail : Nat) (h : s.control.station.speaks = true) : Run H s (queueAlert rail s) := by
  unfold queueAlert
  split
  · rename_i hl
    exact (Relation.ReflTransGen.single (.urges rail h hl)).trans preempt_run
  · exact .single (.counts (.inr (.inr (.inr (.inr (.inr rfl))))))

theorem readRail_run (rail : Nat) : Run H s (readRail rail s) := by
  unfold readRail
  dsimp only
  split
  · exact .single (.watches rfl rfl rfl)
  · split
    · exact .single (.watches rfl rfl rfl)
    · split <;> exact .single (.watches rfl rfl rfl)

theorem brownoutNow_run (rail : Nat) : Run H s (brownoutNow rail s) := by
  unfold brownoutNow
  split
  · rename_i t _
    split
    · rename_i h
      have h1 : Run H s { reach (t + railLowTime) s with path := { (reach (t + railLowTime) s).path with
          railTimer := none, armed := false, railSense := rail } } :=
        (Relation.ReflTransGen.single (.clock (t + railLowTime))).tail (.watches rfl rfl rfl)
      refine (h1.trans ?_).trans alertEffect_run
      split
      · exact queueAlert_run rail (by simp [h.1, Station.speaks])
      · exact .refl
    · exact .refl
  · exact .refl

theorem peerFallsSilent_run (a : Nat) : Run H s (peerFallsSilent a s) := by
  unfold peerFallsSilent
  split
  · rename_i p _
    split
    · exact (Relation.ReflTransGen.single (.clock (p.lastHeard + 2 * periodTime p.period))).tail
        (.updates fun _ _ _ => ⟨rfl, fun h => by simpa [Peer.inOrder] using h⟩)
    · exact .refl
  · exact .refl

theorem peerIsLost_run (a : Nat) : Run H s (peerIsLost a s) := by
  unfold peerIsLost
  split
  · rename_i p _
    split
    · exact (Relation.ReflTransGen.single (.clock (p.lastHeard + 3 * periodTime p.period))).tail (.loses a)
    · exact .refl
  · exact .refl

theorem askTimesOut_run (a : Nat) : Run H s (askTimesOut a s) := by
  unfold askTimesOut
  split
  · rename_i d _
    exact (Relation.ReflTransGen.single (.clock d)).tail
      (.bargains (b := false) (c := True) (by simp) trivial ((Bargains.refl _).failAsk a))
  · exact .refl

theorem holdEnds_run (a : Nat) : Run H s (holdEnds a s) := by
  unfold holdEnds
  split
  · rename_i d _
    exact (Relation.ReflTransGen.single (.clock d)).tail
      (.bargains (b := false) (c := True) (by simp) trivial
        ((Bargains.refl _).updateAsk a _ (fun _ => rfl) fun _ _ ht x hx _ => ht.2.2.2 x hx))
  · exact .refl

theorem recallExpires_run (id : Nat) : Run H s (recallExpires id s) := by
  unfold recallExpires
  split
  · rename_i r hr
    split
    · rename_i d _
      exact (Relation.ReflTransGen.single (.clock d)).tail
        (.bargains (b := false) (c := True) (by simp) trivial (recallExpires_bargains id d hr))
    · exact .refl
  · exact .refl

theorem periodPasses_run : Run H s (periodPasses s) := by
  unfold periodPasses
  split
  · rename_i t _
    split
    · exact (Relation.ReflTransGen.single (.clock (t + periodTime (cfg s).period))).tail (.builds true _)
    · exact .refl
  · exact .refl

theorem spacingEnds_run : Run H s (spacingEnds s) := by
  unfold spacingEnds
  split
  · split
    · exact .single (.clock _)
    · exact .refl
  · exact .refl

theorem suspensionEnds_run : Run H s (suspensionEnds s) := by
  unfold suspensionEnds
  split
  · rename_i t _
    exact (Relation.ReflTransGen.single (.clock t)).tail (.suspends none)
  · exact .refl

theorem rampEnds_run : Run H s (rampEnds s) := by
  unfold rampEnds
  split
  · rename_i t h _
    exact (Relation.ReflTransGen.single (.clock t)).tail (.closes (by simpa using h))
  · exact .refl

theorem followSupply_run (b : Bool) : Run H s (followSupply b s) := by
  unfold followSupply
  split
  · exact .refl
  · exact .single (.supplied b)

theorem takeRestart_run (straps : BitVec 2) : Run H s (takeRestart straps s) := by
  unfold takeRestart
  split
  · split
    · exact .single (.restarts _ _)
    · exact .refl
  · exact .refl

/-! ### Every effect -/

/-- Every effect is a run of acts. -/
theorem effect_run (i : Instr) (hl : H → LeavingAgrees s) : Run H s (effect i s) := by
  have hc : CurrentConcluding H s := currentConcluding_of_leavingAgrees hl
  cases i with
  | powerOnReset | pinReset | resetRelease | pathCurrentChange => exact .refl
  | loadComplete => exact loadDone_run _ _
  | memoryTimeout => exact loadTimedOut_run _
  | listenTimerEnd => exact listenDone_run _ _
  | commit | pop | eventFlagClear | eventMaskWrite | hostWrite =>
    simp only [effect]
    exact writeTransaction_run _
  | setDemand | setCapacity | setRole | leave | rejoin | reclose | clearUnpowered | readPeers | readContracts
  | unknownRequest =>
    simp only [effect]
    exact takeOf_run _
  | restart => exact takeRestart_run _
  | receiveDeclare => exact receiveDeclareEffect_run _ hc
  | receiveAlert => exact receiveAlertEffect_run _ hc
  | receiveAck => exact receiveAckEffect_run _ hc
  | receiveDirectedFrame => exact receiveDirectedEffect_run _ hc
  | malformedReception => exact malformedEffect_run _ hc
  | fragment => exact fragmentEffect_run _ hc
  | ackTransmit => exact ackBegins_run
  | collision => exact collide_run hc
  | quietGapEnd => exact quietGapEnds_run _ hl
  | retryGapEnd => exact retryGapEnds_run _
  | broadcastTransmissionEnd => exact broadcastEnds_run hc
  | ackWindowClose => exact windowCloses_run hc
  | consumeAsk => exact consumeAsk_run
  | consumeGrant => exact consumeGrant_run
  | consumeHold => exact consume_run_of_bargains fun f u _ _ => holdConsumed_bargains f u
  | consumeDecline => exact consume_run_of_bargains fun f u _ _ => declineConsumed_bargains f u
  | consumeTrim => exact consume_run_of_bargains fun f u _ _ => trimConsumed_bargains f u
  | consumeRecall => exact consume_run_of_bargains fun f u _ _ => recallConsumed_bargains f u
  | consumeYield => exact consume_run_of_bargains fun f u _ _ => yieldConsumed_bargains f u
  | consumeRelease => exact consume_run_of_bargains fun f u _ _ => releaseConsumed_bargains f u
  | consumeDeclare => exact consumeDeclare_run
  | consumeAlert =>
    exact consume_run 10 _ fun f rest hs hi _ _ => (Relation.ReflTransGen.single (.consumes hi)).trans alertEffect_run
  | peerSilent => exact peerFallsSilent_run _
  | peerLostThreshold => exact peerIsLost_run _
  | askTimeout => exact askTimesOut_run _
  | holdEnd => exact holdEnds_run _
  | recallDeadline => exact recallExpires_run _
  | declarePeriodDue => exact periodPasses_run
  | declareSpacingEnd => exact spacingEnds_run
  | rampEnd => exact rampEnds_run
  | trip => exact tripNow_run
  | shedWindowClose => exact windowEnds_run
  | railLow | railRestored => exact readRail_run _
  | brownout => exact brownoutNow_run _
  | alertSuspensionEnd => exact suspensionEnds_run
  | supplyLoss | supplyReturn => exact followSupply_run _

end Sys2Proof.Machine
end

section
/-! SUPPORT. How a law is kept at the end of a happening, and what the entries to JOINED, OFFLINE and DUPLICATE leave. -/

namespace Sys2Proof.Machine

/-! ### The end of a happening -/

/-- How a law is kept at the end of a happening: by what the engine, the builder, the path and the outputs do there. -/
structure EndsKeep (P : State → Prop) : Prop where
  bargains : ∀ s t, s.control.station.speaks = true → Bargains true True s t → P s → P t
  turn : ∀ pre s, s.control.station.speaks = true → P s → P (builderTurn pre s)
  drain : ∀ s, s.control.station.speaks = true → P s → P (checkDrain s)
  ask : ∀ p s, mayAsk s = true → bestCandidate s = some p → P s → P (startAsk p s)
  path : ∀ s, s.control.station ≠ .loading → P s → P (movePath s)
  timer : ∀ s, P s → P (moveTimer s)
  watches : ∀ (s : State) p, p.state = s.path.state → p.limit = s.path.limit → p.overdraw = s.path.overdraw → P s →
    P { s with path := p }
  flags : ∀ (s : State) f i, P s → P { s with host := { s.host with flags := f, int := i } }

variable {P : State → Prop}

theorem EndsKeep.startAsks (k : EndsKeep P) (n : Nat) {s : State} (h : P s) : P (startAsks n s) := by
  induction n generalizing s with
  | zero => exact h
  | succ n ih =>
    unfold Machine.startAsks
    split
    · rename_i hm
      split
      · rename_i p hp
        exact ih (k.ask p s hm hp h)
      · exact h
    · exact h

@[simp] theorem builderTurn_control (pre s : State) : (builderTurn pre s).control = s.control :=
  congrArg (fun s => s.control) (outside_builderTurn pre s)
@[simp] theorem checkDrain_control (s : State) : (checkDrain s).control = s.control :=
  congrArg (fun s => s.control) (outside_checkDrain s)
@[simp] theorem engineSettle_control (pre s : State) : (engineSettle pre s).control = s.control :=
  congrArg (fun s => s.control) (outside_engineSettle pre s)

/-- The normal queue's notices, recalls, trims and places, without the asks. -/
theorem EndsKeep.beforeAsks (k : EndsKeep P) (pre : State) {s : State} (hs : s.control.station.speaks = true) (h : P s) :
    P (requeueAsks askPlaces (builderTurn pre (checkDrain (placeNotices
      (if pre.link.normal.length < normalPlaces then trimExcess (planRecalls pre s)
        else builderTurn pre (trimExcess (planRecalls pre s))))))) := by
  have h1 : Bargains true True s (trimExcess (planRecalls pre s)) := ((Bargains.refl s).planRecalls pre).trimExcess
  have hs1 : (trimExcess (planRecalls pre s)).control.station.speaks = true := by rw [h1.control]; exact hs
  have k1 : P (trimExcess (planRecalls pre s)) := k.bargains _ _ hs h1 h
  generalize hv : (if pre.link.normal.length < normalPlaces then trimExcess (planRecalls pre s)
    else builderTurn pre (trimExcess (planRecalls pre s))) = v
  have hsv : v.control.station.speaks = true := by
    subst hv
    split
    · exact hs1
    · simpa using hs1
  have kv : P v := by
    subst hv
    split
    · exact k1
    · exact k.turn pre _ hs1 k1
  have h3 : Bargains true True v (placeNotices v) := (Bargains.refl v).placeNotices
  have hs3 : (placeNotices v).control.station.speaks = true := by rw [h3.control]; exact hsv
  have k4 : P (builderTurn pre (checkDrain (placeNotices v))) :=
    k.turn pre _ (by simpa using hs3) (k.drain _ hs3 (k.bargains _ _ hsv h3 kv))
  exact k.bargains _ _ (by simpa using hs3) ((Bargains.refl _).requeueAsks askPlaces) k4

theorem EndsKeep.engineSettle (k : EndsKeep P) (pre : State) {s : State} (h : P s) : P (engineSettle pre s) := by
  unfold Machine.engineSettle
  split
  · rename_i hs
    exact k.startAsks _ (k.beforeAsks pre hs h)
  · exact h

theorem EndsKeep.setEvent (k : EndsKeep P) (e : Event) {s : State} (h : P s) : P (setEvent e s) :=
  k.flags s (s.host.flags ||| e.bit) s.host.int h

theorem EndsKeep.changeEvents (k : EndsKeep P) (pre : State) {s : State} (h : P s) : P (changeEvents pre s) := by
  unfold Machine.changeEvents
  dsimp only
  split <;> split
  · exact h
  · exact k.setEvent _ h
  · exact k.setEvent _ h
  · exact k.setEvent _ (k.setEvent _ h)

theorem EndsKeep.openShed (k : EndsKeep P) (b : Bool) (pre mid : State) {s : State} (h : P s) :
    P (openShed b pre mid s) := by
  unfold Machine.openShed
  split
  · exact k.watches s { s.path with shedEnd := _ } rfl rfl rfl h
  · exact h

theorem EndsKeep.drive (k : EndsKeep P) {s : State} (h : P s) : P (drive s) :=
  have h1 : P { s with path := { s.path with
      pathEn := decide (s.path.state = .ramping ∨ s.path.state = .closed), limitOut := min fullScale s.path.limit } } :=
    k.watches s _ rfl rfl rfl h
  k.flags _ s.host.flags (intLevel s.host) h1

/-- A law so kept is kept by the end of every happening. -/
theorem EndsKeep.settle (k : EndsKeep P) (b : Bool) (pre : State) {mid : State} (h : P mid) : P (settle b pre mid) := by
  unfold Machine.settle
  split
  · exact k.drive h
  · rename_i hl
    refine k.drive (k.changeEvents pre (k.timer _ (k.openShed b pre mid (k.path _ ?_ (k.engineSettle pre h)))))
    simpa using hl

/-- A law that every act and the end of every happening keep, and every reset meets, is kept by every step. -/
theorem leads_of_acts (acts : ∀ s t, Acts False s t → P s → P t) (ends : EndsKeep P)
    (quiet : ∀ n w a b o x d s, P s → P (retimed n w a b o x d s)) (reset : ∀ c straps s, P (resetStation c straps s))
    (held : ∀ c straps a s, P (holdReset a (resetStation c straps s))) : Leads P P where
  weakens _ h := h
  before := quiet
  behind := quiet
  ackEnds t s h := acts s _ (.stopsAck t) h
  reset := reset
  held := held
  happening b i p h _ := ends.settle b p ((effect_run i nofun).keeps acts h)

/-! ### The builder's turn and the drain's end -/

/-- All that the builder's turn can do: a change pending, a DECLARE due or placed. -/
theorem builderTurn_eq (pre s : State) : ∃ c d, ∃ l : List OutFrame, builderTurn pre s = { s with
    engine := { s.engine with changePending := c, declareDue := d }
    link := { s.link with normal := l } }
    ∧ (l = s.link.normal
      ∨ s.link.normal.any OutFrame.isDeclare = true ∧ l = takePlace s.engine.finalDue s.link.normal
      ∨ s.link.normal.any OutFrame.isDeclare = false ∧ normalRoom s = true
        ∧ l = s.link.normal ++ [⟨0, .declare s.engine.finalDue, 0⟩]) := by
  have h1 : ∃ c, noteDeclared pre s = { s with engine := { s.engine with changePending := c } } := by
    unfold noteDeclared
    split
    · exact ⟨s.engine.changePending, rfl⟩
    · unfold noteChange
      split
      · exact ⟨true, rfl⟩
      · exact ⟨s.engine.changePending, rfl⟩
  obtain ⟨c, e1⟩ := h1
  have h2 : ∃ d, dueByChange (noteDeclared pre s)
      = { s with engine := { s.engine with changePending := c, declareDue := d } } := by
    rw [e1]
    unfold dueByChange
    split
    · exact ⟨true, rfl⟩
    · exact ⟨s.engine.declareDue, rfl⟩
  obtain ⟨d, e2⟩ := h2
  unfold builderTurn
  rw [e2]
  unfold placeDeclare
  dsimp only
  split
  · split
    · rename_i h
      exact ⟨c, false, _, rfl, .inr (.inl ⟨h, rfl⟩)⟩
    · rename_i h
      split
      · rename_i hr
        exact ⟨c, false, _, rfl, .inr (.inr ⟨by simpa using h, hr, rfl⟩)⟩
      · exact ⟨c, d, s.link.normal, rfl, .inl rfl⟩
  · exact ⟨c, d, s.link.normal, rfl, .inl rfl⟩

/-- Completing the long request changes the Host Port, and not its requests. -/
theorem completeLong_eq (c : ResultCode) (s : State) :
    ∃ h : HostPort, completeLong c s = { s with host := h } ∧ h.requests = s.host.requests := by
  unfold completeLong
  split
  · exact ⟨s.host, rfl, rfl⟩
  · exact ⟨_, rfl, rfl⟩

/-- All that the end of a drain can do. It ends with no record of its side, and leaves no role but its target's or IDLE. -/
theorem checkDrain_eq (s : State) : checkDrain s = s ∨ ∃ r d f, ∃ h : HostPort, checkDrain s = { s with
    engine := { s.engine with role := r, declareDue := d, finalDue := f }
    host := h } ∧ h.requests = s.host.requests
    ∧ (∃ x u, (s.engine.role = .drainingTake x u ∧ (∀ q ∈ s.engine.table, q.isTake = false)
      ∨ s.engine.role = .drainingSupply x u ∧ ∀ q ∈ s.engine.table, q.isSupply = false)
      ∧ (r = .idle ∨ r = x.role)) := by
  have ends (x : Target) (u : Purpose) : ∃ r d f, ∃ h : HostPort, endDrain x u s = { s with
      engine := { s.engine with role := r, declareDue := d, finalDue := f }
      host := h } ∧ h.requests = s.host.requests ∧ (r = .idle ∨ r = x.role) := by
    unfold endDrain
    dsimp only
    generalize hr : (if (decide (x = Target.supplier) && supplyTestFails s) = true then Role.idle else x.role) = r
    have hx : r = .idle ∨ r = x.role := by subst hr; split <;> simp
    split
    · obtain ⟨h, e, hq⟩ := completeLong_eq
        (if (decide (x = Target.supplier) && supplyTestFails s) = true then ResultCode.refusedState else .done)
        { s with engine := { s.engine with role := r } }
      exact ⟨r, _, _, h, e, hq, hx⟩
    · exact ⟨r, true, true, s.host, rfl, rfl, hx⟩
  unfold checkDrain
  split
  · rename_i x u hr
    split
    · exact .inl rfl
    · rename_i hn
      obtain ⟨r, d, f, h, e, hq, hx⟩ := ends x u
      exact .inr ⟨r, d, f, h, e, hq, x, u, .inl ⟨hr, by simpa using hn⟩, hx⟩
  · rename_i x u hr
    split
    · exact .inl rfl
    · rename_i hn
      obtain ⟨r, d, f, h, e, hq, hx⟩ := ends x u
      exact .inr ⟨r, d, f, h, e, hq, x, u, .inr ⟨hr, by simpa using hn⟩, hx⟩
  · exact .inl rfl

/-- An ask started: one more ask, its frame behind the normal queue. -/
theorem startAsk_eq (p : Peer) {s : State} (h : mayAsk s = true) : ∃ n, startAsk p s = { s with
    engine := { s.engine with
      asks := s.engine.asks ++ [newAsk p s]
      nextRequest := if s.engine.nextRequest = 15 then 1 else s.engine.nextRequest + 1
      nextRef := n }
    link := { s.link with normal := s.link.normal ++ [askFrame (newAsk p s) s.engine.nextRef] } } := by
  have hr : normalRoom s = true := by
    simp only [mayAsk, Bool.and_eq_true] at h
    exact h.2
  refine ⟨s.engine.nextRef + 1, ?_⟩
  simp [startAsk, enqueue, hr]

/-! ### Changes of the station state -/

/-- Entry to JOINED. -/
theorem enterJoined_eq (incarnation : Byte) (rail : Nat) (s : State) : ∃ t a, ∃ h : HostPort,
    enterJoined incarnation rail s = { s with
      control := { s.control with station := .joined, incarnation := incarnation, listenEnd := none }
      engine := { s.engine with
        role := startRole s, declareDue := true, finalDue := false, changePending := false, lastInstant := none }
      path := { s.path with railSense := rail, railTimer := t, armed := a }
      host := h } ∧ h.requests = s.host.requests := by
  have hrail (u : State) : ∃ t a, readRail rail u
      = { u with path := { u.path with railSense := rail, railTimer := t, armed := a } } := by
    unfold readRail
    dsimp only
    split
    · exact ⟨_, _, rfl⟩
    · split
      · exact ⟨_, _, rfl⟩
      · split
        · exact ⟨_, _, rfl⟩
        · exact ⟨_, _, rfl⟩
  unfold enterJoined
  dsimp only
  generalize hv : ({ clearBuilder { s with
      control := { s.control with station := .joined, incarnation := incarnation, listenEnd := none }
      engine := { s.engine with role := startRole s } } with
    engine := { (clearBuilder { s with
      control := { s.control with station := .joined, incarnation := incarnation, listenEnd := none }
      engine := { s.engine with role := startRole s } }).engine with declareDue := true } } : State) = v
  obtain ⟨t, a, e⟩ := hrail v
  rw [e]
  subst hv
  refine ⟨t, a, ?_⟩
  split
  · obtain ⟨h, e, hq⟩ := completeLong_eq .done _
    exact ⟨h, e, hq⟩
  · exact ⟨s.host, rfl, rfl⟩

/-- Entry to DUPLICATE. -/
theorem enterDuplicate_eq (s : State) : ∃ h : HostPort, enterDuplicate s = { s with
    control := { s.control with station := .duplicate, listenEnd := none }
    engine := { s.engine with
      table := [], asks := [], role := .idle, declareDue := false, finalDue := false, changePending := false,
      lastInstant := none }
    link := { Link.initial with counters := s.link.counters }
    path := { s.path with railTimer := none, armed := true }
    host := h } ∧ h.requests = s.host.requests := by
  obtain ⟨c, f, e⟩ := dropRecords_eq (fun _ => true) s
  unfold enterDuplicate
  rw [e]
  dsimp only
  obtain ⟨h, e', hq⟩ := completeLong_eq .aborted (clearBuilder (stopRailWatch (clearLink { s with
    control := { s.control with station := .duplicate, listenEnd := none }
    engine := { s.engine with
      table := s.engine.table.filter fun r => !(fun _ : Record => true) r, changePending := c, asks := [], role := .idle }
    host := { s.host with flags := s.host.flags ||| f } })))
  refine ⟨(setEvent .addressConflict { s with host := h }).host, ?_, hq⟩
  have e'' := congrArg (setEvent .addressConflict) e'
  refine e''.trans ?_
  have hnil : s.engine.table.filter (fun _ => false) = [] := by simp
  simp only [clearBuilder, stopRailWatch, clearLink, setEvent, Bool.not_true, hnil]

/-- Losing a peer keeps the counterparts covered. -/
theorem peersCover_losePeer {s : State} (a : Nat) (h : PeersCover s) : PeersCover (losePeer a s) := by
  obtain ⟨c, f, q, e⟩ := losePeer_eq a s
  rw [e]
  intro r hr
  dsimp only at hr
  have hr' : r ∈ s.engine.table ∧ (knownPeer s a = true → r.counterpart ≠ a) := by
    split at hr
    · have := List.mem_filter.mp hr
      exact ⟨this.1, fun _ => by simpa using this.2⟩
    · rename_i hk
      exact ⟨hr, fun k => absurd k hk⟩
  obtain ⟨hm, hne⟩ := hr'
  have hk := h r hm
  simp only [knownPeer, List.any_eq_true, beq_iff_eq, List.mem_filter, bne_iff_ne] at *
  obtain ⟨p, hp, hpa⟩ := hk
  exact ⟨p, ⟨hp, fun hx => hne ⟨p, hp, hx⟩ (hpa.symm.trans hx)⟩, hpa⟩

/-- Losing peers, told with what it does to the tables. -/
theorem foldl_losePeer_spec (l : List Nat) (s : State) :
    ∃ t k c f q, l.foldl (fun x a => losePeer a x) s = { s with
      engine := { s.engine with table := t, asks := k, changePending := c }
      peers := s.peers.filter fun p => !l.contains p.addr
      link := { s.link with normal := s.link.normal.filter q }
      host := { s.host with flags := s.host.flags ||| f } }
      ∧ t.Sublist s.engine.table ∧ k.Sublist s.engine.asks
      ∧ (PeersCover s → PeersCover (l.foldl (fun x a => losePeer a x) s)) := by
  induction l generalizing s with
  | nil =>
    exact ⟨s.engine.table, s.engine.asks, s.engine.changePending, 0, fun _ => true, by simp, .refl _, .refl _, id⟩
  | cons a l ih =>
    obtain ⟨c, f, q, h⟩ := losePeer_eq a s
    obtain ⟨t', k', c', f', q', h', ht, hk, hc⟩ := ih (losePeer a s)
    refine ⟨t', k', c', f ||| f', fun x => q' x && q x, ?_, ht.trans ?_, hk.trans ?_,
      fun hs => hc (peersCover_losePeer a hs)⟩
    · rw [List.foldl_cons, h', h]
      simp [List.filter_filter, BitVec.or_assoc, bne, beq_eq_decide, Bool.and_comm]
    · rw [h]
      dsimp only
      split
      · exact List.filter_sublist
      · exact .refl _
    · rw [h]
      dsimp only
      split
      · exact List.filter_sublist
      · exact .refl _

/-- Entry to OFFLINE: the records go with the entries that covered them. -/
theorem enterOffline_spec (s : State) : ∃ t k, ∃ h : HostPort, enterOffline s = { s with
    control := { s.control with station := .offline, listenEnd := none }
    engine := { s.engine with
      table := t, asks := k, declareDue := false, finalDue := false, changePending := false, lastInstant := none }
    peers := []
    link := { Link.initial with counters := s.link.counters }
    path := { s.path with
      state := if s.path.state = .tripped then .opened else s.path.state, railTimer := none, armed := true }
    host := h }
    ∧ h.requests = s.host.requests ∧ t.Sublist s.engine.table ∧ k.Sublist s.engine.asks ∧ (PeersCover s → t = []) := by
  obtain ⟨t0, k0, f0, e0⟩ := enterOffline_eq s
  let v : State := clearBuilder (stopRailWatch (clearLink { s with
    control := { s.control with station := .offline, listenEnd := none }
    path := { s.path with state := if s.path.state = .tripped then .opened else s.path.state } }))
  obtain ⟨t, k, c, f, q, e, ht, hk, hc⟩ := foldl_losePeer_spec (v.peers.map Peer.addr) v
  have hp : v.peers.filter (fun p => !(v.peers.map Peer.addr).contains p.addr) = [] := by
    rw [List.filter_eq_nil_iff]
    intro p hp
    simpa using ⟨p, hp, rfl⟩
  have htab : (enterOffline s).engine.table = t ∧ (enterOffline s).engine.asks = k := by
    have : (enterOffline s).engine = ((v.peers.map Peer.addr).foldl (fun x a => losePeer a x) v).engine := by
      unfold enterOffline
      dsimp only
      split
      · rw [completeLong_engine]
      · rfl
    rw [this, e]
    exact ⟨rfl, rfl⟩
  have hcover : PeersCover s → t = [] := by
    intro hs
    have h1 : PeersCover ((v.peers.map Peer.addr).foldl (fun x a => losePeer a x) v) := hc hs
    rw [e] at h1
    rw [List.eq_nil_iff_forall_not_mem]
    intro r hr
    obtain ⟨p, hp', -⟩ := List.any_eq_true.mp (h1 r hr)
    rw [hp] at hp'
    cases hp'
  obtain ⟨h, e1, hq⟩ : ∃ h : HostPort, enterOffline s = { s with
      control := { s.control with station := .offline, listenEnd := none }
      engine := { s.engine with
        table := t0, asks := k0, declareDue := false, finalDue := false, changePending := false, lastInstant := none }
      peers := []
      link := { Link.initial with counters := s.link.counters }
      path := { s.path with
        state := if s.path.state = .tripped then .opened else s.path.state, railTimer := none, armed := true }
      host := h } ∧ h.requests = s.host.requests := by
    rw [e0]
    dsimp only
    split
    · obtain ⟨h, e1, hq⟩ := completeLong_eq .done _
      exact ⟨h, e1, hq⟩
    · exact ⟨_, rfl, rfl⟩
  have htt : t0 = t := by rw [← htab.1, e1]
  have hkk : k0 = k := by rw [← htab.2, e1]
  subst htt
  subst hkk
  exact ⟨t0, k0, h, e1, hq, ht, hk, hcover⟩

end Sys2Proof.Machine
end

section
/-! SUPPORT. The checks of the configuration image, in the terms of the statement about it: one list of ranges. -/

namespace Sys2Proof.Machine

/-- The fields of an image in index order, each with its least and its greatest value (R147), a default in place of a
use-default code. -/
def imageRanges (bs : List Byte) : List (Nat × Nat × Nat) :=
  let c := imageFields bs
  [(c.address, 1, 30), ((bs.getD 4 0).toNat, 0, 2), (c.capacity, 0, 2000), (c.demand, 0, 2000), (c.minGrant, 1, 40),
    (c.period, 10, 200), (c.askTimeout, 50, 1000), (c.holdTime, 10, 500), (c.recallTimeout, 20, 1000),
    (c.overdrawGrace, 1, 100), (c.shedGrace, 10, 500), (c.overdrawMargin, 1, 20), (c.rampTime, 1, 50),
    (c.startAllowance, 0, 20), ((bs.getD 23 0).toNat, 0, 1), (c.alertThreshold, 0, 6000), (c.alertHoldoff, 200, 5000)]

/-- A value with its range lies outside it. -/
def outOfRange (x : Nat × Nat × Nat) : Bool := decide (x.1 < x.2.1 ∨ x.2.2 < x.1)

theorem not_within (v lo hi : Nat) : (!within v lo hi) = outOfRange (v, lo, hi) := by
  simp only [within, outOfRange, ← decide_not, decide_eq_decide]
  omega

/-- The codes of a start role are 0 to 2. -/
theorem ofCode_isSome (n : Nat) : (Target.ofCode n).isSome = within n 0 2 := by
  match n with
  | 0 | 1 | 2 => rfl
  | n + 3 => simp [Target.ofCode, within]

theorem ofCode_code (x : Target) : Target.ofCode x.code = some x := by cases x <;> rfl

/-- The first value out of range, by its place: a search of numbered tests finds its number. -/
theorem find?_zipIdx_outOfRange (l : List (Nat × Nat × Nat)) (k : Nat) :
    (((l.zipIdx k).map fun x => (x.2, within x.1.1 x.1.2.1 x.1.2.2)).find? fun t => !t.2).map Prod.fst
      = (l.findIdx? outOfRange).map (· + k) := by
  induction l generalizing k with
  | nil => rfl
  | cons x l ih =>
    rw [List.zipIdx_cons, List.map_cons, List.find?_cons, List.findIdx?_cons]
    dsimp only
    rw [not_within]
    cases outOfRange x with
    | true => simp
    | false =>
      refine (ih (k + 1)).trans ?_
      rw [if_neg (by simp), Option.map_map]
      congr 1
      funext n
      simp only [Function.comp_apply]
      omega

/-- The first bad field is the first value out of its range. -/
theorem badFieldOf_eq (bs : List Byte) : badFieldOf bs = ((imageRanges bs).findIdx? outOfRange).map (· + 1) := by
  rw [← find?_zipIdx_outOfRange, badFieldOf]
  congr 2
  simp [fieldTests, imageRanges, ofCode_isSome]

/-- An image with no bad field has every value in its range. -/
theorem inRange_of_badFieldOf_none {bs : List Byte} (h : badFieldOf bs = none) :
    ∀ x ∈ imageRanges bs, x.2.1 ≤ x.1 ∧ x.1 ≤ x.2.2 := by
  rw [badFieldOf_eq, Option.map_eq_none_iff, List.findIdx?_eq_none_iff] at h
  intro x hx
  have := h x hx
  simp only [outOfRange, decide_eq_false_iff_not, not_or, not_lt] at this
  exact this

/-- The marker is its two bytes. -/
theorem be16_eq_iff (hi lo : Byte) (n : Nat) : be16 hi lo = n ↔ hi.toNat = n / 256 ∧ lo.toNat = n % 256 := by
  have := lo.isLt
  unfold be16
  omega

/-- What is adopted has every field in the range R147 gives it. -/
theorem inRange_of_adopt {image : Option (List Byte)} {c : StationConfig} (h : checkImage image = .adopt c) :
    ∃ bs, image = some bs ∧ 30 ≤ bs.length ∧ c = imageFields bs ∧ ∀ x ∈ imageRanges bs, x.2.1 ≤ x.1 ∧ x.1 ≤ x.2.2 := by
  cases image with
  | none => cases h
  | some bs =>
    obtain ⟨hlen, -, -, -, hbad, hc⟩ := checks_of_checkImage_adopt h
    exact ⟨bs, rfl, hlen, hc, inRange_of_badFieldOf_none hbad⟩

/-- A start role code in range is the code of the role read. -/
theorem startRole_code {bs : List Byte} (h : (bs.getD 4 0).toNat ≤ 2) :
    (imageFields bs).startRole.code = (bs.getD 4 0).toNat := by
  show ((Target.ofCode (bs.getD 4 0).toNat).getD .idle).code = _
  interval_cases (bs.getD 4 0).toNat <;> rfl

/-- Settles O16: the checks in their order, each with those before it passed. -/
theorem adoptedConfigInRange : Obligations.AdoptedConfigInRange := by
  refine ⟨fun image c h => ?_, rfl, fun bs => ?_⟩
  · obtain ⟨bs, rfl, hlen, rfl, hr⟩ := inRange_of_adopt h
    simp only [imageRanges, List.forall_mem_cons, List.not_mem_nil, false_imp_iff, implies_true, and_true, Nat.zero_le,
      true_and] at hr
    obtain ⟨h1, h2, h3, h4, h5, h6, h7, h8, h9, h10, h11, h12, h13, h14, h15, h16, h17⟩ := hr
    refine ⟨h1, h3, h4, h5, h6, h7, h8, h9, h10, h11, h12, h13, h14, h16, h17, fun bs' hb => ?_⟩
    obtain rfl : bs = bs' := by simpa using hb
    exact ⟨hlen, h2, h15, startRole_code h2, rfl⟩
  · intro b w d8 d16 marked summed ranges bad
    have hmarked : be16 (bs.getD 0 0) (bs.getD 1 0) = 0xE73A ↔ marked := be16_eq_iff _ _ _
    have hbad : badFieldOf bs = bad.map (· + 1) := badFieldOf_eq bs
    have checked (h : 30 ≤ bs.length) (hm : marked) (hv : b 2 = 1) (hs : summed) : checkImage (some bs)
        = match badFieldOf bs with
          | some i => .fault (.badField i)
          | none => .adopt (imageFields bs) := by
      unfold checkImage
      dsimp only
      rw [if_neg (Nat.not_lt.mpr (id h : imageBytes ≤ _)), if_neg (not_not.mpr (hmarked.mpr hm)),
        if_neg (not_not.mpr hv), if_neg (not_not.mpr hs)] <;> rfl
    refine ⟨fun h => if_pos h, fun h hm => ?_, fun h hm hv => ?_, fun h hm hv hs => ?_, fun h hm hv hs =>
      ⟨fun k hk => ?_, fun hk x hx => ?_⟩⟩
    · unfold checkImage
      dsimp only
      rw [if_neg (Nat.not_lt.mpr (id h : imageBytes ≤ _)), if_pos (hmarked.not.mpr hm)]
    · unfold checkImage
      dsimp only
      rw [if_neg (Nat.not_lt.mpr (id h : imageBytes ≤ _)), if_neg (not_not.mpr (hmarked.mpr hm)), if_pos hv]
    · unfold checkImage
      dsimp only
      rw [if_neg (Nat.not_lt.mpr (id h : imageBytes ≤ _)), if_neg (not_not.mpr (hmarked.mpr hm)),
        if_neg (not_not.mpr hv), if_pos hs]
    · rw [checked h hm hv hs, hbad, hk]
      rfl
    · rw [checked h hm hv hs, hbad, hk]
      have hrole : (imageFields bs).startRole = x := by
        show (Target.ofCode (b 4)).getD .idle = x
        rw [← hx, ofCode_code]
        rfl
      subst hrole
      rfl

end Sys2Proof.Machine
end

section
/-! SUPPORT. The laws that every step keeps: the outputs, the path, the counters, the queues, the silent link, the entries
of counterparts, and the rest before a good load. -/

namespace Sys2Proof.Machine

/-! ### What an act on the tables leaves -/

/-- The contract-id counter moved on past the id that is allocated next. -/
def idTaken (s : State) : State :=
  { s with engine := { s.engine with nextContract := nextId (allocateId s 17 s.engine.nextContract) } }

theorem aside_grantNew (taker rid asked : Nat) (s : State) : aside (grantNew taker rid asked s)
    = aside (idTaken s) := by
  unfold grantNew
  dsimp only
  refine (aside_enqueue _ _).trans ?_
  exact congrArg
    (fun u : State => { u with engine := { u.engine with nextContract := nextId (allocateId s 17 s.engine.nextContract) } })
    (aside_addRecord _ s)

theorem aside_contract (src id amount : Nat) (v : Revision) (s : State) :
    aside (addRecord ⟨src, id, .take, src, amount, v, .active, none, 0⟩ (removeAsk src s)) = aside s := by simp

theorem control_of_aside {s t : State} (h : aside t = aside s) : t.control = s.control := congrArg (fun x => x.control) h
theorem path_of_aside {s t : State} (h : aside t = aside s) : t.path = s.path := congrArg (fun x => x.path) h

/-! ### The outputs -/

/-- The end of every happening drives the outputs. -/
theorem outputsAgree_settle (b : Bool) (p m : State) : OutputsAgree (settle b p m) := by
  unfold settle
  split <;> exact ⟨rfl, rfl, rfl⟩

theorem outputsAgree_leads : Leads OutputsAgree OutputsAgree where
  weakens _ h := h
  before _ _ _ _ _ _ _ _ h := h
  behind _ _ _ _ _ _ _ _ h := h
  ackEnds _ _ h := h
  reset c straps s := by simp [OutputsAgree, resetStation, HostPort.initial, PathCtl.initial, intLevel]
  held c straps a s := by simp [OutputsAgree, holdReset, resetStation, HostPort.initial, PathCtl.initial, intLevel]
  happening b i p _ _ := outputsAgree_settle b p (effect i p)

/-- Settles O4: every happening ends by driving the outputs, and a reset begins with them in agreement. -/
theorem outputsAgreeKept : Obligations.OutputsAgreeKept := fun _ _ h e => outputsAgree_leads.step h e

/-! ### The path -/

/-- The path follows the limit it is given. -/
theorem pathOpenAtZero_movePath (s : State) : PathOpenAtZero (movePath s) := by
  unfold movePath PathOpenAtZero
  dsimp only
  split
  · split
    · rename_i h; simp; omega
    · rename_i h; simp_all
  · split <;> simp_all
  · split <;> simp_all
  · simp_all

theorem pathOpenAtZero_pathSettle (b : Bool) (pre mid s : State) : PathOpenAtZero (pathSettle b pre mid s) := by
  have hshed : PathOpenAtZero (openShed b pre mid (movePath s)) := by
    unfold openShed
    split <;> exact pathOpenAtZero_movePath s
  unfold pathSettle moveTimer
  split <;> exact hshed

/-- The end of a happening leaves the path OPEN exactly at limit 0, if it did so in LOADING. -/
theorem pathOpenAtZero_settle {b : Bool} {p m : State} (h : m.control.station = .loading → PathOpenAtZero m) :
    PathOpenAtZero (settle b p m) := by
  unfold settle
  split
  · rename_i hl; exact h hl
  · have hset := pathOpenAtZero_pathSettle b p m (engineSettle p m)
    unfold changeEvents
    dsimp only
    split <;> split <;> exact hset

/-- In LOADING every act keeps the path. -/
theorem Acts.pathOpenAtZero {H : Prop} {s t : State} (a : Acts H s t)
    (h : s.control.station = .loading → PathOpenAtZero s) : t.control.station = .loading → PathOpenAtZero t := by
  cases a with
  | clock n => simpa [PathOpenAtZero] using h
  | restarts => intro _; simp [PathOpenAtZero, resetStation, PathCtl.initial]
  | bargains _ _ k => simpa [PathOpenAtZero, k.control, k.path] using h
  | reconciles _ _ _ k => simpa [PathOpenAtZero, k.control, k.path, consumed] using h
  | grants taker asked rid =>
    have e := aside_grantNew taker rid asked s
    simpa [PathOpenAtZero, control_of_aside e, path_of_aside e, idTaken] using h
  | @contracts src id amount v =>
    have e := aside_contract src id amount v s
    simpa [PathOpenAtZero, control_of_aside e, path_of_aside e] using h
  | loses a => obtain ⟨_, _, _, e⟩ := losePeer_eq a s; rw [e]; exact h
  | joins i rail _ => obtain ⟨_, _, _, e, -⟩ := enterJoined_eq i rail s; rw [e]; simp
  | leaves _ _ _ _ ht _ => simp [ht.control, leavingNow]
  | conflicts => obtain ⟨_, e, -⟩ := enterDuplicate_eq s; rw [e]; simp
  | concludes => obtain ⟨_, _, _, e, -⟩ := enterOffline_spec s; rw [e]; simp
  | listens | faults | adopts => simp [enterListening, enterConfigFault, adoptLoad]
  | watches h1 h2 _ => simpa [PathOpenAtZero, h1, h2] using h
  | closes hr =>
    intro hl
    have := h hl
    simp_all [PathOpenAtZero]
  | trips =>
    have k := tripPath_bargains (b := false) (c := True) s
    intro _
    simp [PathOpenAtZero, k.path, pathTripped]
  | recloses _ hl => intro k; exact absurd k hl
  | _ => exact h

theorem pathOpenAtZero_leads : Leads PathOpenAtZero PathOpenAtZero where
  weakens _ h := h
  before _ _ _ _ _ _ _ _ h := h
  behind _ _ _ _ _ _ _ _ h := h
  ackEnds _ _ h := h
  reset c straps s := by simp [PathOpenAtZero, resetStation, PathCtl.initial]
  held c straps a s := by simp [PathOpenAtZero, holdReset, resetStation, PathCtl.initial]
  happening _ i _ h _ := pathOpenAtZero_settle
    ((effect_run (H := False) i nofun).keeps (P := fun s => s.control.station = .loading → PathOpenAtZero s)
      (fun _ _ a => a.pathOpenAtZero) fun _ => h)

/-- Settles O5: outside LOADING the end of every happening moves the path with its limit, and in LOADING no act opens it or
changes its limit. -/
theorem pathOpenAtZeroKept : Obligations.PathOpenAtZeroKept := fun _ _ h e => pathOpenAtZero_leads.step h e

end Sys2Proof.Machine
end

section
/-! SUPPORT. The laws of the link that every step keeps: its counters, the bounds of its queues, its silence. -/

namespace Sys2Proof.Machine

variable {H : Prop} {s t : State}

theorem link_setNormal (s : State) {t : State} (h : aside t = aside s) :
    { t.link with normal := [] } = { s.link with normal := [] } := congrArg (fun x => x.link) h

theorem inbound_of_aside (h : aside t = aside s) : t.link.inbound = s.link.inbound :=
  congrArg (fun x => x.link.inbound) h
theorem urgent_of_aside (h : aside t = aside s) : t.link.urgent = s.link.urgent := congrArg (fun x => x.link.urgent) h
theorem counters_of_aside (h : aside t = aside s) : t.link.counters = s.link.counters :=
  congrArg (fun x => x.link.counters) h
theorem requests_of_aside (h : aside t = aside s) : t.host.requests = s.host.requests :=
  congrArg (fun x => x.host.requests) h

/-! ### The counters -/

theorem bump_le (n : Nat) : bump n ≤ counterMax := Nat.min_le_left _ _

theorem Counters.Counts.inRange {c d : Counters} (k : c.Counts d) (s : State)
    (h : CountersInRange { s with link := { s.link with counters := c } }) :
    CountersInRange { s with link := { s.link with counters := d } } := by
  obtain ⟨h1, h2, h3, h4, h5, h6⟩ := h
  rcases k with rfl | rfl | rfl | rfl | rfl | rfl
  · exact ⟨bump_le _, h2, h3, h4, h5, h6⟩
  · exact ⟨h1, bump_le _, h3, h4, h5, h6⟩
  · exact ⟨h1, h2, bump_le _, h4, h5, h6⟩
  · exact ⟨h1, h2, h3, bump_le _, h5, h6⟩
  · exact ⟨h1, h2, h3, h4, bump_le _, h6⟩
  · exact ⟨h1, h2, h3, h4, h5, bump_le _⟩

theorem Acts.countersInRange (a : Acts H s t) (h : CountersInRange s) : CountersInRange t := by
  cases a with
  | clock n => simpa [CountersInRange] using h
  | restarts => exact ⟨Nat.zero_le _, Nat.zero_le _, Nat.zero_le _, Nat.zero_le _, Nat.zero_le _, Nat.zero_le _⟩
  | bargains _ _ k => simpa only [CountersInRange, k.counters] using h
  | reconciles _ _ _ k =>
    have e : t.link.counters = s.link.counters := k.counters
    simpa only [CountersInRange, e] using h
  | grants taker asked rid =>
    simpa only [CountersInRange, counters_of_aside (aside_grantNew taker rid asked s), idTaken] using h
  | @contracts src id amount v =>
    simpa only [CountersInRange, counters_of_aside (aside_contract src id amount v s)] using h
  | loses a => obtain ⟨_, _, _, e⟩ := losePeer_eq a s; rw [e]; exact h
  | joins i rail _ => obtain ⟨_, _, _, e, -⟩ := enterJoined_eq i rail s; rw [e]; exact h
  | leaves _ _ _ _ k _ =>
    have e : _ = s.link.counters := k.counters
    simpa only [CountersInRange, e] using h
  | conflicts => obtain ⟨_, e, -⟩ := enterDuplicate_eq s; rw [e]; exact h
  | concludes => obtain ⟨_, _, _, e, -⟩ := enterOffline_spec s; rw [e]; exact h
  | counts k => exact k.inRange s h
  | trips =>
    have e : (tripPath s).link.counters = s.link.counters := (tripPath_bargains (b := false) (c := True) s).counters
    simpa only [CountersInRange, e] using h
  | _ => exact h

theorem countersInRange_leads : Leads CountersInRange CountersInRange where
  weakens _ h := h
  before _ _ _ _ _ _ _ _ h := h
  behind _ _ _ _ _ _ _ _ h := h
  ackEnds _ _ h := h
  reset _ _ _ := ⟨Nat.zero_le _, Nat.zero_le _, Nat.zero_le _, Nat.zero_le _, Nat.zero_le _, Nat.zero_le _⟩
  held _ _ _ _ := ⟨Nat.zero_le _, Nat.zero_le _, Nat.zero_le _, Nat.zero_le _, Nat.zero_le _, Nat.zero_le _⟩
  happening b i p h _ := by
    simpa only [CountersInRange, settle_counters] using
      (effect_run (H := False) i nofun).keeps (P := CountersInRange) (fun _ _ a => a.countersInRange) h

/-- Settles O12: a counter that counts stops at its greatest value. -/
theorem countersInRangeKept : Obligations.CountersInRangeKept := fun _ _ h e => countersInRange_leads.step h e

/-! ### The bounds of the queues -/

/-- The laws of the normal queue: its bound, and at most one DECLARE in it. -/
def NormalBounded (l : List OutFrame) : Prop := l.length ≤ normalPlaces ∧ (l.filter OutFrame.isDeclare).length ≤ 1

theorem queuesBounded_iff (s : State) : QueuesBounded s ↔ NormalBounded s.link.normal
    ∧ (∀ f ∈ s.link.inbound, f.cameIn = true) ∧ s.link.urgent.length ≤ urgentPlaces
    ∧ s.link.inbound.length ≤ inboundPlaces ∧ s.host.requests.length ≤ requestPlaces := by
  unfold QueuesBounded NormalBounded
  tauto

theorem Queues.bounded {b : Bool} {l m : List OutFrame} (k : Queues b l m) (h : NormalBounded l) : NormalBounded m :=
  ⟨by obtain ⟨_, _, _, _, _, _, hl⟩ := k; exact hl h.1, k.declares.length_le.trans h.2⟩

theorem NormalBounded.sublist {l m : List OutFrame} (h : NormalBounded l) (k : m.Sublist l) : NormalBounded m :=
  (Queues.of_sublist (b := false) k).bounded h

theorem normalBounded_nil : NormalBounded [] := ⟨Nat.zero_le _, Nat.zero_le _⟩

theorem queues_grantNew (taker rid asked : Nat) (s : State) :
    Queues true s.link.normal (grantNew taker rid asked s).link.normal := by
  unfold grantNew
  dsimp only
  generalize hv : ({ addRecord _ s with engine := _ } : State) = v
  have e : v.link.normal = s.link.normal := by subst hv; simp [addRecord]
  exact e ▸ queues_enqueue rfl v

theorem queues_contract (src id amount : Nat) (v : Revision) (s : State) : Queues true s.link.normal
    (addRecord ⟨src, id, .take, src, amount, v, .active, none, 0⟩ (removeAsk src s)).link.normal := by
  obtain ⟨q, e⟩ := removeAsk_eq src s
  simp only [addRecord, noteChange_link, noteContracts_link, e]
  exact .of_sublist List.filter_sublist

/-- A state whose queues but the normal one are as they were. -/
theorem QueuesBounded.of_normal (h : QueuesBounded s) (hn : NormalBounded s.link.normal → NormalBounded t.link.normal)
    (hi : t.link.inbound = s.link.inbound) (hu : t.link.urgent = s.link.urgent)
    (hr : t.host.requests = s.host.requests) : QueuesBounded t := by
  rw [queuesBounded_iff] at *
  rw [hi, hu, hr]
  exact ⟨hn h.1, h.2⟩

theorem QueuesBounded.of_bargains {b : Bool} {c : Prop} (h : QueuesBounded s) (k : Bargains b c s t) :
    QueuesBounded t :=
  h.of_normal k.queue.bounded k.inbound k.urgent k.requests

/-- A state whose link holds no frame. -/
theorem QueuesBounded.of_clear (h : QueuesBounded s) (hu : t.link.urgent = []) (hn : t.link.normal = [])
    (hi : t.link.inbound = []) (hr : t.host.requests = s.host.requests) : QueuesBounded t := by
  rw [queuesBounded_iff] at *
  obtain ⟨-, -, -, -, hq⟩ := h
  rw [hu, hn, hi, hr]
  exact ⟨normalBounded_nil, nofun, Nat.zero_le _, Nat.zero_le _, hq⟩

theorem QueuesBounded.of_consumed {f : Frame} {rest : List Frame} (h : QueuesBounded s) (hi : s.link.inbound = f :: rest) :
    QueuesBounded (consumed rest s) := by
  rw [queuesBounded_iff] at *
  obtain ⟨hn, hc, hu, hl, hr⟩ := h
  rw [hi] at hc hl
  exact ⟨hn, fun g hg => hc g (List.mem_cons_of_mem f hg), hu, (Nat.le_succ _).trans hl, hr⟩

theorem queuesBounded_reset (c : ResetCause) (straps : BitVec 2) (s : State) :
    QueuesBounded (resetStation c straps s) :=
  ⟨nofun, Nat.zero_le _, Nat.zero_le _, Nat.zero_le _, Nat.zero_le _, Nat.zero_le _⟩

theorem Acts.queuesBounded (a : Acts H s t) (h : QueuesBounded s) : QueuesBounded t := by
  cases a with
  | clock n => simpa [QueuesBounded] using h
  | restarts => exact queuesBounded_reset ..
  | bargains _ _ k => exact h.of_bargains k
  | reconciles hi _ _ k => exact (h.of_consumed hi).of_bargains k
  | consumes hi => exact h.of_consumed hi
  | grants taker asked rid =>
    have e := aside_grantNew taker rid asked s
    exact QueuesBounded.of_normal (s := idTaken s) h (queues_grantNew taker rid asked s).bounded (inbound_of_aside e) (urgent_of_aside e)
      (requests_of_aside e)
  | @contracts src id amount v =>
    have e := aside_contract src id amount v s
    exact h.of_normal (queues_contract src id amount v s).bounded (inbound_of_aside e) (urgent_of_aside e)
      (requests_of_aside e)
  | loses a =>
    obtain ⟨_, _, _, e⟩ := losePeer_eq a s
    rw [e]
    exact h.of_normal (fun k => k.sublist List.filter_sublist) rfl rfl rfl
  | joins i rail _ =>
    obtain ⟨_, _, _, e, hr⟩ := enterJoined_eq i rail s
    rw [e]
    exact h.of_normal id rfl rfl hr
  | leaves _ _ _ _ k _ => exact h.of_normal k.queue.bounded k.inbound k.urgent k.requests
  | conflicts =>
    obtain ⟨_, e, hr⟩ := enterDuplicate_eq s
    rw [e]
    exact h.of_clear rfl rfl rfl hr
  | concludes =>
    obtain ⟨_, _, _, e, hr, -⟩ := enterOffline_spec s
    rw [e]
    exact h.of_clear rfl rfl rfl hr
  | delivers _ hl hf =>
    obtain ⟨hc, hu, hn, hi, hr, hd⟩ := h
    refine ⟨fun g hg => ?_, hu, hn, by simpa using hl, hr, hd⟩
    rcases List.mem_append.mp hg with hg | hg
    · exact hc g hg
    · rw [List.mem_singleton.mp hg]; exact hf
  | attempts _ _ _ hu hn _ =>
    rw [queuesBounded_iff] at *
    obtain ⟨kn, kc, ku, kl⟩ := h
    exact ⟨kn.sublist hn, kc, hu.length_le.trans ku, kl⟩
  | urges rail _ hl =>
    obtain ⟨hc, hu, hn⟩ := h
    exact ⟨hc, by simpa using hl, hn⟩
  | trips => exact QueuesBounded.of_bargains (s := pathTripped s) h (tripPath_bargains (b := false) (c := True) s)
  | hosts hr =>
    obtain ⟨hc, hu, hn, hi, hq, hd⟩ := h
    exact ⟨hc, hu, hn, hi, hr.trans hq, hd⟩
  | commits hl =>
    obtain ⟨hc, hu, hn, hi, hq, hd⟩ := h
    exact ⟨hc, hu, hn, hi, by simpa using hl, hd⟩
  | _ => exact h

/-- The due DECLARE takes the waiting one's place, or a free one where none waits. -/
theorem normalBounded_builderTurn (pre : State) (h : NormalBounded s.link.normal) :
    NormalBounded (builderTurn pre s).link.normal := by
  obtain ⟨c, d, l, e, hl⟩ := builderTurn_eq pre s
  rw [e]
  rcases hl with rfl | ⟨-, rfl⟩ | ⟨hnone, hroom, rfl⟩
  · exact h
  · exact ⟨by simpa using h.1, by simpa [takePlace_declares] using h.2⟩
  · have hroom : s.link.normal.length < normalPlaces := by simpa [normalRoom] using hroom
    have hzero : s.link.normal.filter OutFrame.isDeclare = [] := by
      rw [List.filter_eq_nil_iff]
      simpa using hnone
    refine ⟨by simpa using hroom, ?_⟩
    simp only [List.filter_append, hzero, List.nil_append]
    exact (List.length_filter_le _ _)

theorem normalBounded_startAsk (p : Peer) (hm : mayAsk s = true) (h : NormalBounded s.link.normal) :
    NormalBounded (startAsk p s).link.normal := by
  obtain ⟨n, e⟩ := startAsk_eq p hm
  have hroom : s.link.normal.length < normalPlaces := by
    simp only [mayAsk, Bool.and_eq_true] at hm
    simpa [normalRoom] using hm.2
  rw [e]
  refine ⟨by simpa using hroom, ?_⟩
  simpa [List.filter_append, askFrame, OutFrame.isDeclare] using h.2

@[simp] theorem checkDrain_link (s : State) : (checkDrain s).link = s.link := by
  rcases checkDrain_eq s with e | ⟨_, _, _, _, e, -⟩ <;> rw [e]

@[simp] theorem movePath_link (s : State) : (movePath s).link = s.link := by
  unfold movePath; dsimp only; split <;> (try split) <;> rfl
@[simp] theorem moveTimer_link (s : State) : (moveTimer s).link = s.link := by unfold moveTimer; split <;> rfl
@[simp] theorem movePath_control (s : State) : (movePath s).control = s.control :=
  congrArg (fun s => s.control) (outside_movePath s)
@[simp] theorem moveTimer_control (s : State) : (moveTimer s).control = s.control :=
  congrArg (fun s => s.control) (outside_moveTimer s)

theorem normalBounded_ends : EndsKeep fun s => NormalBounded s.link.normal where
  bargains _ _ _ k h := k.queue.bounded h
  turn pre _ _ h := normalBounded_builderTurn pre h
  drain _ _ h := by simpa using h
  ask p _ hm _ h := normalBounded_startAsk p hm h
  path _ _ h := by simpa using h
  timer _ h := by simpa using h
  watches _ _ _ _ _ h := h
  flags _ _ _ h := h

theorem queuesBounded_leads : Leads QueuesBounded QueuesBounded where
  weakens _ h := h
  before _ _ _ _ _ _ _ _ h := h
  behind _ _ _ _ _ _ _ _ h := h
  ackEnds _ _ h := h
  reset := queuesBounded_reset
  held c straps _ s := queuesBounded_reset c straps s
  happening b i p h _ := by
    have k : QueuesBounded (effect i p) :=
      (effect_run (H := False) i nofun).keeps (fun _ _ a => a.queuesBounded) h
    exact k.of_normal (normalBounded_ends.settle b p) (by simp) (by simp) (by simp)

/-- Settles O6: whatever is queued finds room, and a DECLARE is placed only where none waits or in the waiting one's
place. -/
theorem queuesBoundedKept : Obligations.QueuesBoundedKept := fun _ _ h e => queuesBounded_leads.step h e

/-! ### Silence -/

/-- The link holds no frame and no ACK. -/
def Link.quiet (l : Link) : Prop :=
  l.urgent = [] ∧ l.normal = [] ∧ l.current = none ∧ l.preempted = none ∧ l.inbound = [] ∧ l.ackDue = none
    ∧ l.ackOut = none

theorem silent_iff (s : State) : Silent s ↔ (s.control.station.speaks = false → s.link.quiet) := Iff.rfl

theorem Silent.of_speaks (h : s.control.station.speaks = true) : Silent s := fun k => by simp [h] at k

theorem quiet_initial (c : Counters) : { Link.initial with counters := c }.quiet := ⟨rfl, rfl, rfl, rfl, rfl, rfl, rfl⟩

/-- Bargaining that places nothing leaves a quiet link quiet. -/
theorem Silent.of_bargains {b : Bool} {c : Prop} (h : Silent s) (hb : b = true → s.control.station.speaks = true)
    (k : Bargains b c s t) : Silent t := by
  intro hs
  rw [k.control] at hs
  obtain ⟨h1, h2, h3, h4, h5, h6, h7⟩ := h hs
  have hq : t.link.normal = [] := by
    have hbf : b = false := by
      cases b
      · rfl
      · rw [hb rfl] at hs; cases hs
    subst hbf
    have := k.queue.sublist
    rw [h2] at this
    exact List.sublist_nil.mp this
  exact ⟨k.urgent.trans h1, hq, k.current.trans h3, k.preempted.trans h4, k.inbound.trans h5, k.ackDue.trans h6,
    k.ackOut.trans h7⟩

/-- A station whose link holds a current frame speaks. -/
theorem Silent.speaks_of_current (h : Silent s) {c : Current} (hc : s.link.current = some c) :
    s.control.station.speaks = true := by
  by_contra hs
  obtain ⟨-, -, h3, -⟩ := h (by simpa using hs)
  rw [hc] at h3
  cases h3

theorem Acts.silent (a : Acts H s t) (h : Silent s) : Silent t := by
  cases a with
  | clock n =>
    intro hs
    rw [reach_control] at hs
    obtain ⟨h1, h2, h3, h4, h5, h6, h7⟩ := h hs
    simpa [h1, h2, h3, h4, h5, h6] using reach_ackOut_of_none n s h7
  | restarts => exact fun _ => quiet_initial _
  | bargains hb _ k => exact h.of_bargains hb k
  | reconciles _ _ hs k => exact .of_speaks (by rw [k.control]; exact hs)
  | consumes hi =>
    refine .of_speaks ?_
    by_contra hs
    obtain ⟨-, -, -, -, h5, -⟩ := h (by simpa [consumed] using hs)
    rw [hi] at h5
    cases h5
  | grants taker asked rid hs => exact .of_speaks (by rw [control_of_aside (aside_grantNew taker rid asked s)]; exact hs)
  | @contracts src id amount v _ hs =>
    exact .of_speaks (by rw [control_of_aside (aside_contract src id amount v s)]; exact hs)
  | loses a =>
    obtain ⟨_, _, _, e⟩ := losePeer_eq a s
    rw [e]
    intro hs
    obtain ⟨h1, h2, h3⟩ := h hs
    exact ⟨h1, by simp [h2], h3⟩
  | faults code supply hl => exact fun _ => h (by simp [hl, Station.speaks])
  | adopts supply hl => exact fun _ => h (by simp [hl, Station.speaks])
  | joins i rail _ => obtain ⟨_, _, _, e, -⟩ := enterJoined_eq i rail s; rw [e]; exact .of_speaks rfl
  | listens ho => exact fun _ => h (by simp [ho, Station.speaks])
  | leaves _ _ _ _ k _ => exact .of_speaks (by show _ = true; simp [k.control, leavingNow, Station.speaks])
  | conflicts => obtain ⟨_, e, -⟩ := enterDuplicate_eq s; rw [e]; exact fun _ => quiet_initial _
  | concludes => obtain ⟨_, _, _, e, -⟩ := enterOffline_spec s; rw [e]; exact fun _ => quiet_initial _
  | stopsAck =>
    intro hs
    obtain ⟨h1, h2, h3, h4, h5, h6, -⟩ := h hs
    exact ⟨h1, h2, h3, h4, h5, h6, rfl⟩
  | drivesAck _ hd =>
    intro hs
    obtain ⟨-, -, -, -, -, h6, -⟩ := h hs
    rw [hd] at h6
    cases h6
  | decidesAck _ hs | delivers hs | urges _ hs => exact .of_speaks hs
  | attempts _ _ hs =>
    refine .of_speaks ?_
    rcases hs with hs | hs
    · exact hs
    · obtain ⟨c, hc⟩ := Option.isSome_iff_exists.mp hs
      exact h.speaks_of_current hc
  | backs _ hc => exact .of_speaks (h.speaks_of_current hc)
  | preempts hc => exact .of_speaks (h.speaks_of_current hc)
  | ceases =>
    intro hs
    obtain ⟨h1, h2, -, h4⟩ := h hs
    exact ⟨h1, h2, rfl, h4⟩
  | trips =>
    exact Silent.of_bargains (s := pathTripped s) h (by simp) (tripPath_bargains (b := false) (c := True) s)
  | _ => exact h

theorem silent_ends : EndsKeep Silent where
  bargains _ _ hs k h := h.of_bargains (fun _ => hs) k
  turn _ _ hs _ := .of_speaks (by simpa using hs)
  drain _ hs _ := .of_speaks (by simpa using hs)
  ask p s hm _ _ := by
    obtain ⟨n, e⟩ := startAsk_eq p hm
    rw [e]
    refine .of_speaks ?_
    simp only [mayAsk, Bool.and_eq_true, decide_eq_true_eq] at hm
    simp [hm, Station.speaks]
  path _ _ h := by simpa [Silent] using h
  timer _ h := by simpa [Silent] using h
  watches _ _ _ _ _ h := h
  flags _ _ _ h := h

theorem silent_leads : Leads Silent Silent :=
  leads_of_acts (fun _ _ a => a.silent) silent_ends (fun _ _ _ _ _ _ _ _ h => h) (fun _ _ _ _ => quiet_initial _)
    fun _ _ _ _ _ => quiet_initial _

/-- Settles O7: what puts a frame or an ACK into the link does so in JOINED or LEAVING, and leaving these clears the link. -/
theorem silentKept : Obligations.SilentKept := fun _ _ h e => silent_leads.step h e

end Sys2Proof.Machine
end

section
/-! SUPPORT. Two more laws that every step keeps: every contract's counterpart has an entry, and a station without a good
load rests. -/

namespace Sys2Proof.Machine

variable {H : Prop} {s t : State}

/-! ### The entries of counterparts -/

theorem knownPeer_iff (s : State) (a : Nat) : knownPeer s a = true ↔ a ∈ s.peers.map Peer.addr := by
  simp [knownPeer]

theorem mem_insertPeer {q : Peer} (p : Peer) {l : List Peer} : q ∈ insertPeer p l → q = p ∨ q ∈ l := by
  induction l with
  | nil => simp [insertPeer]
  | cons x l ih =>
    unfold insertPeer
    split
    · simp
    · split
      · intro h
        rcases List.mem_cons.mp h with h | h
        · exact .inl h
        · exact .inr (List.mem_cons_of_mem _ h)
      · intro h
        rcases List.mem_cons.mp h with h | h
        · exact .inr (h ▸ List.mem_cons_self)
        · rcases ih h with h | h
          · exact .inl h
          · exact .inr (List.mem_cons_of_mem _ h)

/-- An entry made keeps the addresses of the others. -/
theorem addr_mem_insertPeer {a : Nat} (p : Peer) {l : List Peer} (h : a ∈ l.map Peer.addr) :
    a ∈ (insertPeer p l).map Peer.addr := by
  induction l with
  | nil => cases h
  | cons x l ih =>
    unfold insertPeer
    split
    · exact List.mem_cons_of_mem _ h
    · split
      · rename_i e
        rcases List.mem_cons.mp h with h | h
        · exact List.mem_cons.mpr (.inl (h.trans e.symm))
        · exact List.mem_cons_of_mem _ h
      · rcases List.mem_cons.mp h with h | h
        · exact List.mem_cons.mpr (.inl h)
        · exact List.mem_cons_of_mem _ (ih h)

theorem updatePeer_addrs {a : Nat} {g : Peer → Peer} (h : ∀ p ∈ s.peers, p.addr = a → (g p).addr = p.addr) :
    (updatePeer a g s).peers.map Peer.addr = s.peers.map Peer.addr := by
  simp only [updatePeer, List.map_map]
  refine List.map_congr_left fun p hp => ?_
  simp only [Function.comp_apply]
  split
  · rename_i e
    exact h p hp (by simpa using e)
  · rfl

/-- A state whose records have the counterparts of records that were, with the addresses as they were. -/
theorem PeersCover.of_addrs (h : PeersCover s)
    (ht : ∀ r ∈ t.engine.table, ∃ q ∈ s.engine.table, r.counterpart = q.counterpart)
    (ha : t.peers.map Peer.addr = s.peers.map Peer.addr) : PeersCover t := by
  intro r hr
  obtain ⟨q, hq, e⟩ := ht r hr
  rw [knownPeer_iff, ha, e, ← knownPeer_iff]
  exact h q hq

theorem Traced.counterpart {l : List Record} (h : Traced l t) :
    ∀ r ∈ t.engine.table, ∃ q ∈ l, r.counterpart = q.counterpart := by
  intro r hr
  obtain ⟨q, hq, hf⟩ := h r hr
  obtain ⟨-, -, -, hc, -⟩ := hf
  exact ⟨q, hq, hc⟩

theorem PeersCover.of_bargains {b : Bool} {c : Prop} (h : PeersCover s) (k : Bargains b c s t) : PeersCover t :=
  h.of_addrs k.traced.counterpart k.peerAddrs

theorem peers_of_aside (h : aside t = aside s) : t.peers.map Peer.addr = s.peers.map Peer.addr := by
  simpa [Function.comp_def, aside] using congrArg (fun x => x.peers.map Peer.addr) h

/-- A record more, whose counterpart has an entry. -/
theorem PeersCover.of_new {n : Record} (h : PeersCover s) (ht : t.engine.table = s.engine.table ++ [n])
    (ha : t.peers.map Peer.addr = s.peers.map Peer.addr) (hn : knownPeer s n.counterpart = true) : PeersCover t := by
  intro r hr
  rw [knownPeer_iff, ha, ← knownPeer_iff]
  rcases List.mem_append.mp (ht ▸ hr) with hr | hr
  · exact h r hr
  · rw [List.mem_singleton.mp hr]; exact hn

theorem PeersCover.of_nil (h : t.engine.table = []) : PeersCover t := by
  intro r hr
  rw [h] at hr
  cases hr

/-- The record of a contract granted. -/
def grantedRecord (taker asked : Nat) (s : State) : Record :=
  ⟨ownAddress s, allocateId s 17 s.engine.nextContract, .supply, taker, min (min asked (free s).toNat) maxAmount, 0,
    .provisional, none, 0⟩

theorem grantNew_table (taker rid asked : Nat) (s : State) :
    (grantNew taker rid asked s).engine.table = s.engine.table ++ [grantedRecord taker asked s] := by
  simp [grantNew, answer, addRecord, grantedRecord]

theorem contract_table (src id amount : Nat) (v : Revision) (s : State) :
    (addRecord ⟨src, id, .take, src, amount, v, .active, none, 0⟩ (removeAsk src s)).engine.table
      = s.engine.table ++ [⟨src, id, .take, src, amount, v, .active, none, 0⟩] := by
  simp [addRecord]

theorem Acts.peersCover (a : Acts H s t) (h : PeersCover s) : PeersCover t := by
  cases a with
  | clock n => simpa [PeersCover] using h
  | restarts => exact .of_nil rfl
  | bargains _ _ k => exact h.of_bargains k
  | @reconciles f rest d t hi hd hs k => exact PeersCover.of_bargains (s := consumed rest s) h k
  | grants taker asked rid _ _ _ hk =>
    exact PeersCover.of_new (s := idTaken s) h (grantNew_table taker rid asked s) (peers_of_aside (aside_grantNew taker rid asked s)) hk
  | @contracts src id amount v _ _ _ _ _ hk =>
    exact h.of_new (contract_table src id amount v s) (peers_of_aside (aside_contract src id amount v s)) hk
  | updates hg =>
    exact h.of_addrs (fun r hr => ⟨r, hr, rfl⟩) (updatePeer_addrs fun p hp ha => (hg p hp ha).1)
  | @meets src d =>
    intro r hr
    have := h r hr
    rw [knownPeer_iff] at *
    exact addr_mem_insertPeer _ this
  | loses a => exact peersCover_losePeer a h
  | joins i rail _ => obtain ⟨_, _, _, e, -⟩ := enterJoined_eq i rail s; rw [e]; exact h
  | @leaves u _ _ _ _ k =>
    have hu : PeersCover u := PeersCover.of_bargains (s := leavingNow s) h k
    exact hu
  | conflicts => obtain ⟨_, e, -⟩ := enterDuplicate_eq s; rw [e]; exact .of_nil rfl
  | concludes =>
    obtain ⟨_, _, _, e, -, -, -, hn⟩ := enterOffline_spec s
    rw [e, hn h]
    exact .of_nil rfl
  | trips => exact PeersCover.of_bargains (s := pathTripped s) h (tripPath_bargains (b := false) (c := True) s)
  | _ => exact h

theorem peersCover_leads : Leads PeersCover PeersCover where
  weakens _ h := h
  before _ _ _ _ _ _ _ _ h := h
  behind _ _ _ _ _ _ _ _ h := h
  ackEnds _ _ h := h
  reset _ _ _ := .of_nil rfl
  held _ _ _ _ := .of_nil rfl
  happening b i p h _ := by
    have k : PeersCover (effect i p) := (effect_run (H := False) i nofun).keeps (fun _ _ a => a.peersCover) h
    exact k.of_addrs (Traced.settle b p _).counterpart (by simp)

/-- Settles O8: a record is made only for a known station, and a lost entry takes its records with it. -/
theorem peersCoverKept : Obligations.PeersCoverKept := fun _ _ h e => peersCover_leads.step h e

/-! ### The rest before a good load -/

/-- The tables, the role and the path of a station that rests. -/
def AtRest (s : State) : Prop :=
  s.control.config = none ∧ s.control.unpowered = false ∧ s.peers = [] ∧ s.engine.table = [] ∧ s.engine.asks = []
    ∧ s.engine.role = .idle ∧ s.engine.demand = 0 ∧ s.engine.capacity = 0 ∧ s.path.state = .opened ∧ s.path.limit = 0
    ∧ s.path.overdraw = none

/-- The load's part of Station Control: its configuration, its station state, its memory read, its reset. -/
def LoadAgrees (c : Control) : Prop :=
  (c.station.unloaded = false → c.config.isSome = true)
    ∧ (∀ x, c.config = some x → addressOk x.address = true ∧ 1 ≤ x.minGrant)
    ∧ (c.loadStart.isSome = true → c.station = .loading)

theorem restsUnloaded_iff (hr : s.control.resetHeld = false) :
    RestsUnloaded s ↔ (s.control.station.unloaded = true → AtRest s) ∧ LoadAgrees s.control := by
  unfold RestsUnloaded AtRest LoadAgrees
  simp [hr]

/-- The law of rest between the acts of a happening, in which RESET is not asserted. -/
def Resting (s : State) : Prop :=
  (s.control.station.unloaded = true → AtRest s) ∧ LoadAgrees s.control ∧ Silent s ∧ s.control.resetHeld = false

theorem unloaded_of_speaks {x : Station} (h : x.speaks = true) : x.unloaded = false := by
  cases x <;> simp_all [Station.speaks, Station.unloaded]

theorem unloaded_of_hears {x : Station} (h : x.hears = true) : x.unloaded = false := by
  cases x <;> simp_all [Station.hears, Station.unloaded]

/-- A load that agrees, in another station state in which it is held. -/
theorem LoadAgrees.move {c d : Control} (h : LoadAgrees c) (hc : d.config = c.config) (hl : d.loadStart = c.loadStart)
    (hu : c.station.unloaded = false) : LoadAgrees d := by
  obtain ⟨h1, h2, h3⟩ := h
  refine ⟨fun _ => hc ▸ h1 hu, hc ▸ h2, fun k => ?_⟩
  rw [h3 (hl ▸ k)] at hu
  cases hu

/-- Bargaining leaves a resting station at rest. -/
theorem AtRest.of_bargains {b : Bool} {c : Prop} (h : AtRest s) (k : Bargains b c s t) : AtRest t := by
  obtain ⟨h1, h2, h3, h4, h5, h6, h7, h8, h9⟩ := h
  have hp : t.peers = [] := by simpa [h3] using k.peerAddrs
  have ht : t.engine.table = [] := by
    rw [List.eq_nil_iff_forall_not_mem]
    intro r hr
    obtain ⟨q, hq, -⟩ := k.traced r hr
    rw [h4] at hq
    cases hq
  have ha : t.engine.asks = [] := by simpa [h5] using k.asks
  unfold AtRest
  rw [k.control, k.role, k.demand, k.capacity, k.path]
  exact ⟨h1, h2, hp, ht, ha, h6, h7, h8, h9⟩

theorem Resting.of_bargains {b : Bool} {c : Prop} (h : Resting s) (hb : b = true → s.control.station.speaks = true)
    (k : Bargains b c s t) : Resting t := by
  obtain ⟨h1, h2, h3, h4⟩ := h
  refine ⟨fun hu => ?_, k.control ▸ h2, h3.of_bargains hb k, k.control ▸ h4⟩
  rw [k.control] at hu
  exact (h1 hu).of_bargains k

/-- A state in which the station is loaded. -/
theorem Resting.of_loaded (hu : t.control.station.unloaded = false) (hl : LoadAgrees t.control) (hs : Silent t)
    (hr : t.control.resetHeld = false) : Resting t := ⟨fun k => by simp [hu] at k, hl, hs, hr⟩

/-- A state of the same Station Control, at rest where it was. -/
theorem Resting.of_control (h : Resting s) (hc : t.control = s.control) (hs : Silent t)
    (k : AtRest s → AtRest t) : Resting t := by
  obtain ⟨h1, h2, -, h4⟩ := h
  exact ⟨fun hu => k (h1 (hc ▸ hu)), hc ▸ h2, hs, hc ▸ h4⟩

theorem atRest_reset (c : ResetCause) (straps : BitVec 2) (s : State) : AtRest (resetStation c straps s) :=
  ⟨rfl, rfl, rfl, rfl, rfl, rfl, rfl, rfl, rfl, rfl, rfl⟩

theorem resting_reset (c : ResetCause) (straps : BitVec 2) (s : State) : Resting (resetStation c straps s) :=
  ⟨fun _ => atRest_reset c straps s, ⟨nofun, nofun, fun _ => rfl⟩, fun _ => quiet_initial _, rfl⟩

theorem Acts.resting (a : Acts H s t) (h : Resting s) : Resting t := by
  have hs : Silent t := a.silent h.2.2.1
  obtain ⟨h1, h2, h3, h4⟩ := id h
  have loaded (hu : s.control.station.unloaded = false) (hc : t.control = s.control) : Resting t :=
    .of_loaded (hc ▸ hu) (hc ▸ h2) hs (hc ▸ h4)
  cases a with
  | clock n => exact h.of_control (by simp) hs fun k => by simpa [AtRest] using k
  | restarts => exact resting_reset ..
  | bargains hb _ k => exact h.of_bargains hb k
  | reconciles _ _ hsp k => exact loaded (unloaded_of_speaks hsp) k.control
  | grants taker asked rid hsp =>
    exact loaded (unloaded_of_speaks hsp) (control_of_aside (s := idTaken s) (aside_grantNew taker rid asked s))
  | @contracts src id amount v _ hsp =>
    exact loaded (unloaded_of_speaks hsp) (control_of_aside (aside_contract src id amount v s))
  | updates =>
    refine h.of_control rfl hs fun k => ?_
    obtain ⟨k1, k2, k3, k4⟩ := k
    exact ⟨k1, k2, by simp [updatePeer, k3], k4⟩
  | meets hh => exact loaded (unloaded_of_hears hh) rfl
  | loses a =>
    obtain ⟨_, _, _, e⟩ := losePeer_eq a s
    rw [e] at hs ⊢
    refine h.of_control rfl hs fun k => ?_
    obtain ⟨k1, k2, k3, k4, k5, k6⟩ := k
    exact ⟨k1, k2, by simp [k3], by simp [k4], by simp [k5], k6⟩
  | faults code supply hl => exact ⟨fun _ => h1 (by simp [hl, Station.unloaded]), ⟨nofun, h2.2.1, nofun⟩, hs, h4⟩
  | @adopts c image supply hl hc =>
    obtain ⟨bs, -, -, rfl, hr⟩ := inRange_of_adopt hc
    refine .of_loaded rfl ⟨fun _ => rfl, fun x hx => ?_, nofun⟩ hs h4
    obtain rfl : imageFields bs = x := by simpa [adoptLoad, enterListening] using hx
    exact ⟨by simpa [addressOk] using hr ((imageFields bs).address, 1, 30) (by simp [imageRanges]),
      (hr ((imageFields bs).minGrant, 1, 40) (by simp [imageRanges])).1⟩
  | joins i rail hl =>
    obtain ⟨_, _, _, e, -⟩ := enterJoined_eq i rail s
    rw [e] at hs ⊢
    exact .of_loaded rfl (h2.move rfl rfl (by rw [hl]; rfl)) hs h4
  | listens hl => exact .of_loaded rfl (h2.move rfl rfl (by rw [hl]; rfl)) hs h4
  | leaves _ _ _ hl k _ =>
    have hc := k.control
    refine .of_loaded ?_ (h2.move ?_ ?_ (by rw [hl]; rfl)) hs ?_
    all_goals simp only [hc, leavingNow, stopRailWatch, Station.unloaded, h4]
  | conflicts hh =>
    obtain ⟨_, e, -⟩ := enterDuplicate_eq s
    rw [e] at hs ⊢
    exact .of_loaded rfl (h2.move rfl rfl (unloaded_of_hears hh)) hs h4
  | concludes hc =>
    obtain ⟨_, _, _, e, -⟩ := enterOffline_spec s
    rw [e] at hs ⊢
    refine .of_loaded rfl (h2.move rfl rfl ?_) hs h4
    rcases hc with hc | ⟨hc | hc, -⟩
    · rw [hc]; rfl
    · exact unloaded_of_speaks hc
    · obtain ⟨c, hcur⟩ := Option.isSome_iff_exists.mp hc
      exact unloaded_of_speaks (h3.speaks_of_current hcur)
  | watches e1 e2 e3 =>
    refine h.of_control rfl hs fun k => ?_
    obtain ⟨k1, k2, k3, k4, k5, k6, k7, k8, k9, k10, k11⟩ := k
    exact ⟨k1, k2, k3, k4, k5, k6, k7, k8, e1.trans k9, e2.trans k10, e3.trans k11⟩
  | closes hr =>
    refine h.of_control rfl hs fun k => ?_
    obtain ⟨-, -, -, -, -, -, -, -, k9, -⟩ := k
    simp [hr] at k9
  | trips ho =>
    have e := (tripPath_bargains (b := false) (c := True) s).control
    refine h.of_control e hs fun k => ?_
    obtain ⟨-, -, -, -, -, -, -, -, -, -, k11⟩ := k
    simp [k11] at ho
  | recloses ht =>
    refine h.of_control rfl hs fun k => ?_
    obtain ⟨-, -, -, -, -, -, -, -, k9, -⟩ := k
    simp [ht] at k9
  | values d c hj => exact .of_loaded (by rw [hj]; rfl) h2 hs h4
  | powered =>
    refine ⟨fun hu => ?_, h2, hs, h4⟩
    obtain ⟨k1, -, k3⟩ := h1 hu
    exact ⟨k1, rfl, k3⟩
  | roles r hj => exact .of_loaded (by rw [hj]; rfl) h2 hs h4
  | _ => exact ⟨h1, h2, hs, h4⟩

/-- In CONFIG_FAULT the limit is 0, and the path stays OPEN. -/
theorem atRest_movePath (hu : s.control.station.unloaded = true) (h : AtRest s) :
    AtRest (movePath s) := by
  obtain ⟨k1, k2, k3, k4, k5, k6, k7, k8, k9, k10, k11⟩ := h
  have hlim : limitOf s = 0 := by
    unfold limitOf
    cases hst : s.control.station <;> simp_all [Station.unloaded]
  unfold movePath
  simp only [k9, hlim, lt_irrefl, ↓reduceIte]
  exact ⟨k1, k2, k3, k4, k5, k6, k7, k8, rfl, rfl, k11⟩

/-- A speaking station of the same Station Control. -/
theorem Resting.of_speaking (h : Resting s) (hs : s.control.station.speaks = true) (e : t.control = s.control) :
    Resting t := by
  obtain ⟨-, h2, -, h4⟩ := h
  exact .of_loaded (e ▸ unloaded_of_speaks hs) (e ▸ h2) (.of_speaks (e ▸ hs)) (e ▸ h4)

theorem resting_ends : EndsKeep Resting where
  bargains _ _ hs k h := h.of_bargains (fun _ => hs) k
  turn pre s hs h := h.of_speaking hs (by simp)
  drain s hs h := h.of_speaking hs (by simp)
  ask p s hm _ h := by
    have hsp : s.control.station.speaks = true := by
      simp only [mayAsk, Bool.and_eq_true, decide_eq_true_eq] at hm
      simp [hm, Station.speaks]
    obtain ⟨n, e⟩ := startAsk_eq p hm
    exact h.of_speaking hsp (by rw [e])
  path s hl h := by
    have hs := silent_ends.path s hl h.2.2.1
    obtain ⟨h1, h2, -, h4⟩ := h
    refine ⟨fun hu => ?_, by simpa using h2, hs, by simpa using h4⟩
    rw [movePath_control] at hu
    exact atRest_movePath hu (h1 hu)
  timer s h := by
    refine h.of_control (by simp) (silent_ends.timer s h.2.2.1) fun k => ?_
    obtain ⟨k1, k2, k3, k4, k5, k6, k7, k8, k9, k10, k11⟩ := k
    have : overdrawWatched s = false := by simp [overdrawWatched, k9]
    simp only [moveTimer, this, Bool.false_and]
    exact ⟨k1, k2, k3, k4, k5, k6, k7, k8, k9, k10, rfl⟩
  watches s p e1 e2 e3 h := by
    refine h.of_control rfl h.2.2.1 fun k => ?_
    obtain ⟨k1, k2, k3, k4, k5, k6, k7, k8, k9, k10, k11⟩ := k
    exact ⟨k1, k2, k3, k4, k5, k6, k7, k8, e1.trans k9, e2.trans k10, e3.trans k11⟩
  flags _ _ _ h := h

theorem restsUnloaded_leads : Leads (fun s => RestsUnloaded s ∧ Silent s) RestsUnloaded where
  weakens _ h := h.1
  before _ _ _ _ _ _ _ _ h := h
  behind _ _ _ _ _ _ _ _ h := h
  ackEnds t s h := ⟨h.1, silent_leads.ackEnds t s h.2⟩
  reset c straps s := (restsUnloaded_iff rfl).mpr ⟨fun _ => atRest_reset c straps s, nofun, nofun, fun _ => rfl⟩
  held c straps a s := ⟨fun _ => atRest_reset c straps s, nofun, nofun, nofun, fun _ => ⟨rfl, rfl⟩⟩
  happening b i p h hr := by
    obtain ⟨h1, h2⟩ := (restsUnloaded_iff hr).mp h.1
    have k : Resting (settle b p (effect i p)) := resting_ends.settle b p
      ((effect_run (H := False) i nofun).keeps (fun _ _ a => a.resting) ⟨h1, h2, h.2, hr⟩)
    obtain ⟨k1, k2, -, k4⟩ := k
    exact (restsUnloaded_iff k4).mpr ⟨k1, k2⟩

/-- Settles O13: only the adoption of a good load gives a resting station anything. -/
theorem restsUnloadedKept : Obligations.RestsUnloadedKept := fun _ _ h k e => restsUnloaded_leads.step ⟨h, k⟩ e

end Sys2Proof.Machine
end

section
/-! SUPPORT. A state that the laws of leaving allow and a step takes out of them: `finalAbout` looks at the normal queue, the
current frame and the pre-empted frame, and not at the urgent queue, so that a final DECLARE there is seen only once it has
become the current frame. -/

namespace Sys2Proof.Machine

/-- A joined station in IDLE with the final DECLARE in its urgent queue, whose quiet gap ends next. -/
def finalInUrgent : State :=
  { State.reset with
    control := { State.reset.control with station := .joined, loadStart := none }
    link := { Link.initial with urgent := [⟨0, .declare true, 0⟩], idleSince := some 0 }
    pending := [.quietGapEnd 0 0] }

/-- What the quiet gap's end makes of it. -/
def finalCurrent : State := happen false 0 (quietGapEnds 0) { finalInUrgent with pending := [] }

theorem step_finalInUrgent : step finalInUrgent = .next finalCurrent := rfl

theorem leavingAgrees_finalInUrgent : LeavingAgrees finalInUrgent := by
  unfold LeavingAgrees
  decide

/-- The final DECLARE is sent by a station that is not leaving. -/
theorem not_leavingAgrees_finalCurrent : ¬ LeavingAgrees finalCurrent := by
  unfold LeavingAgrees
  decide

/-- Refutes O10: a final DECLARE in the urgent queue becomes the current frame of a station in JOINED. -/
theorem not_requestsSoundKept : ¬ Obligations.RequestsSoundKept := by
  intro h
  have hsound : RequestsSound finalInUrgent := ⟨leavingAgrees_finalInUrgent, ⟨nofun, nofun⟩, ⟨Nat.zero_le _, rfl⟩⟩
  exact not_leavingAgrees_finalCurrent (h _ _ hsound step_finalInUrgent).1

/-- Refutes O11: so it does in the laws of the roles, which hold the law of leaving too. -/
theorem not_rolesSoundKept : ¬ Obligations.RolesSoundKept := by
  intro h
  have hsound : RolesSound finalInUrgent :=
    ⟨leavingAgrees_finalInUrgent, nofun, fun k => absurd rfl k, nofun, fun _ => rfl, nofun⟩
  exact not_leavingAgrees_finalCurrent (h _ _ hsound step_finalInUrgent).1

end Sys2Proof.Machine
end

section
/-! SUPPORT. The placing of owed notices: which are placed, what the queue and the table then hold. -/

namespace Sys2Proof.Machine

/-- The records of a table that owe a notice. -/
def owingOf (l : List Record) : List Record := l.filter fun r => r.owed.isSome

/-- The state with another table and more behind the normal queue, as placing notices leaves it. -/
def noticed (l : List Record) (fs : List OutFrame) (c : Bool) (f : BitVec 16) (s : State) : State :=
  { s with
    engine := { s.engine with table := l, changePending := c }
    link := { s.link with normal := s.link.normal ++ fs }
    host := { s.host with flags := f } }

theorem noticed_noticed (l l' : List Record) (fs fs' : List OutFrame) (c c' : Bool) (f f' : BitVec 16) (s : State) :
    noticed l' fs' c' f' (noticed l fs c f s) = noticed l' (fs ++ fs') c' f' s := by
  simp [noticed]

theorem placeNotice_of_none {r : Record} {s : State} (h : r.owed = none) : placeNotice s r = s := by
  simp [placeNotice, h]

theorem placeNotice_of_full {r : Record} {s : State} (h : normalRoom s = false) : placeNotice s r = s := by
  unfold placeNotice
  split
  · rfl
  · rw [h]; rfl

/-- With distinct keys a record is dropped alone. -/
theorem Distinct.filter_key {before after : List Record} {r : Record} (h : Distinct (before ++ r :: after)) :
    (before ++ r :: after).filter (fun q => !q.hasKey r.supplier r.id) = before ++ after := by
  have keep : ∀ q ∈ before ++ after, q.hasKey r.supplier r.id = false := by
    intro q hq
    obtain ⟨h1, h2, h3⟩ := List.pairwise_append.mp h
    obtain ⟨h4, -⟩ := List.pairwise_cons.mp h2
    rw [Record.hasKey, Bool.and_eq_false_iff]
    by_contra hc
    simp only [not_or, Bool.not_eq_false, beq_iff_eq] at hc
    rcases List.mem_append.mp hq with hq | hq
    · exact h3 q hq r List.mem_cons_self hc
    · exact h4 q hq ⟨hc.1.symm, hc.2.symm⟩
  have hr : r.hasKey r.supplier r.id = true := by simp [Record.hasKey]
  rw [List.filter_append, List.filter_cons_of_neg (by simp [hr]), ← List.filter_append, List.filter_eq_self]
  exact fun q hq => by simp [keep q hq]

/-- Placing the notice of a record in its place: a CLOSING one goes, any other owes none. -/
theorem placeNotice_eq {before after : List Record} {r : Record} {k : Notice} {s : State}
    (ht : s.engine.table = before ++ r :: after) (hd : Distinct (before ++ r :: after)) (hk : r.owed = some k)
    (hroom : normalRoom s = true) :
    ∃ c f, placeNotice s r
      = noticed (before ++ (if r.state = .closing then [] else [{ r with owed := none }]) ++ after) [noticeOf r] c f s := by
  have hen : enqueue (noticeFrame r k) s = { s with link := { s.link with normal := s.link.normal ++ [noticeOf r] } } := by
    simp [enqueue, hroom, noticeFrame_owed hk]
  unfold placeNotice
  rw [hk]
  simp only [hroom, ↓reduceIte, hen]
  split
  · rename_i hc
    have hst : r.state = .closing := by
      cases hs : r.state <;> simp_all [Record.isClosing]
    obtain ⟨c, f, e⟩ := dropRecords_eq (Record.hasKey r.supplier r.id)
      { s with link := { s.link with normal := s.link.normal ++ [noticeOf r] } }
    refine ⟨c, s.host.flags ||| f, ?_⟩
    rw [dropRecord, e]
    simp [noticed, ht, hd.filter_key, hst]
  · rename_i hc
    have hst : r.state ≠ .closing := by
      intro hs
      simp [Record.isClosing, hs] at hc
    refine ⟨s.engine.changePending, s.host.flags, ?_⟩
    have hf := hd.find
    rw [← ht] at hf
    have hcl : Record.isClosing { r with owed := none } = r.isClosing := rfl
    unfold putRecord
    simp only [hf, Record.visible, hcl]
    simp [noticed, ht, hd.map_key, hst]

/-- How many notices are placed: all that are owed, or what the queue has places for. -/
def placedCount (owing : Nat) (s : State) : Nat := min owing (normalPlaces - s.link.normal.length)

theorem foldl_placeNotice (todo : List Record) : ∀ (done : List Record) (s : State),
    s.engine.table = done ++ todo → Distinct (done ++ todo) →
    ∃ c f, todo.foldl placeNotice s
      = noticed (done ++ placedTable (placedCount (owingOf todo).length s) todo)
          (((owingOf todo).take (placedCount (owingOf todo).length s)).map noticeOf) c f s := by
  induction todo with
  | nil =>
    intro done s ht _
    exact ⟨s.engine.changePending, s.host.flags, by simp [noticed, owingOf, placedCount, ← ht]⟩
  | cons r todo ih =>
    intro done s ht hd
    rw [List.foldl_cons]
    by_cases hk : r.owed = none
    · rw [placeNotice_of_none hk]
      obtain ⟨c, f, e⟩ := ih (done ++ [r]) s (by simpa using ht) (by simpa using hd)
      have how : owingOf (r :: todo) = owingOf todo := by simp [owingOf, hk]
      refine ⟨c, f, ?_⟩
      rw [e, how]
      generalize placedCount (owingOf todo).length s = n
      cases n with
      | zero => simp
      | succ n => simp [placedTable, hk]
    · obtain ⟨k, hk⟩ := Option.ne_none_iff_exists'.mp hk
      have how : owingOf (r :: todo) = r :: owingOf todo := by simp [owingOf, hk]
      by_cases hroom : normalRoom s = true
      · have hlt : s.link.normal.length < normalPlaces := by simpa [normalRoom] using hroom
        obtain ⟨c, f, e⟩ := placeNotice_eq ht hd hk hroom
        rw [e]
        generalize hmid : (if r.state = .closing then [] else [{ r with owed := none }] : List Record) = mid at e ⊢
        have hd' : Distinct ((done ++ mid) ++ todo) := by
          subst hmid
          split
          · rw [List.append_nil]
            exact hd.sublist (List.Sublist.append_left (List.sublist_cons_self r todo) done)
          · simpa using hd.replace (r := r) (n := { r with owed := none }) ⟨rfl, rfl⟩
        obtain ⟨c', f', e'⟩ := ih (done ++ mid) (noticed (done ++ mid ++ todo) [noticeOf r] c f s) rfl hd'
        refine ⟨c', f', ?_⟩
        have hcount : placedCount (owingOf (r :: todo)).length s
            = placedCount (owingOf todo).length (noticed (done ++ mid ++ todo) [noticeOf r] c f s) + 1 := by
          simp only [placedCount, how, noticed, List.length_append, List.length_cons, List.length_nil]
          omega
        rw [e', hcount, how, noticed_noticed]
        have hk' : ¬ r.owed = none := by simp [hk]
        subst hmid
        simp only [placedTable, hk', ↓reduceIte, List.take_succ_cons, List.map_cons, List.append_assoc]
        split <;> simp
      · have hfull : normalRoom s = false := by simpa using hroom
        have hstay : ∀ l : List Record, l.foldl placeNotice s = s := fun l => by
          induction l with
          | nil => rfl
          | cons q l ihl => rw [List.foldl_cons, placeNotice_of_full hfull, ihl]
        have hzero : placedCount (owingOf (r :: todo)).length s = 0 := by
          have : normalPlaces ≤ s.link.normal.length := by simpa [normalRoom] using hfull
          simp [placedCount, Nat.sub_eq_zero_of_le this]
        refine ⟨s.engine.changePending, s.host.flags, ?_⟩
        rw [placeNotice_of_full hfull, hstay, hzero]
        simp [noticed, ← ht]

/-- The notices of a table with distinct keys are placed, oldest record first, until the queue is full or none is owed. -/
theorem placeNotices_eq {s : State} (hd : Distinct s.engine.table) :
    ∃ c f, placeNotices s
      = noticed (placedTable (placedCount (owingOf s.engine.table).length s) s.engine.table)
          (((owingOf s.engine.table).take (placedCount (owingOf s.engine.table).length s)).map noticeOf) c f s :=
  foldl_placeNotice s.engine.table [] s rfl hd

/-- Once every notice is placed none is owed. -/
theorem owed_none_of_placedTable {n : Nat} {l : List Record} (h : (owingOf l).length ≤ n) :
    ∀ r ∈ placedTable n l, r.owed = none := by
  induction l generalizing n with
  | nil => simp [placedTable]
  | cons q l ih =>
    cases n with
    | zero =>
      have hnil : owingOf (q :: l) = [] := List.length_eq_zero_iff.mp (Nat.le_zero.mp h)
      have := List.filter_eq_nil_iff.mp hnil
      simpa using this
    | succ n =>
      by_cases hq : q.owed = none
      · have hl : (owingOf l).length ≤ n + 1 := by simpa [owingOf, hq] using h
        simpa [placedTable, hq] using ih hl
      · have hl : (owingOf l).length ≤ n := by
          obtain ⟨k, hk⟩ := Option.ne_none_iff_exists'.mp hq
          simpa [owingOf, hk] using h
        simp only [placedTable, hq, ↓reduceIte]
        split
        · exact ih hl
        · simpa using ih hl

/-- Where the placing of notices leaves a place, it leaves no notice owed. -/
theorem owed_none_of_room {s : State} (hd : Distinct s.engine.table) (h : normalRoom (placeNotices s) = true) :
    ∀ r ∈ (placeNotices s).engine.table, r.owed = none := by
  obtain ⟨c, f, e⟩ := placeNotices_eq hd
  rw [e] at h ⊢
  refine owed_none_of_placedTable ?_
  simp only [normalRoom, noticed, List.length_append, List.length_map, List.length_take, placedCount,
    decide_eq_true_eq] at h ⊢
  omega

/-! ### The normal queue behind the notices -/

/-- The normal queue only grows after the notices are placed. -/
theorem length_le_builderTurn (pre s : State) : s.link.normal.length ≤ (builderTurn pre s).link.normal.length := by
  obtain ⟨_, _, l, e, hl⟩ := builderTurn_eq pre s
  rw [e]
  rcases hl with rfl | ⟨-, rfl⟩ | ⟨-, -, rfl⟩ <;> simp

theorem length_le_enqueue (f : OutFrame) (s : State) : s.link.normal.length ≤ (enqueue f s).link.normal.length := by
  unfold enqueue
  split <;> simp

theorem length_le_requeueAsks (n : Nat) (s : State) :
    s.link.normal.length ≤ (requeueAsks n s).link.normal.length := by
  induction n generalizing s with
  | zero => exact le_refl _
  | succ n ih =>
    unfold requeueAsks
    split
    · exact le_refl _
    · split
      · rename_i a _ _
        refine le_trans ?_ (ih _)
        exact length_le_enqueue (askFrame a s.engine.nextRef) s
      · exact le_refl _

theorem length_le_startAsks (n : Nat) (s : State) : s.link.normal.length ≤ (startAsks n s).link.normal.length := by
  induction n generalizing s with
  | zero => exact le_refl _
  | succ n ih =>
    unfold startAsks
    split
    · split
      · rename_i p _
        refine le_trans ?_ (ih _)
        exact length_le_enqueue (askFrame (newAsk p s) s.engine.nextRef) s
      · exact le_refl _
    · exact le_refl _

@[simp] theorem openShed_link (b : Bool) (pre mid s : State) : (openShed b pre mid s).link = s.link := by
  unfold openShed; split <;> rfl
@[simp] theorem pathSettle_link (b : Bool) (pre mid s : State) : (pathSettle b pre mid s).link = s.link := by
  simp [pathSettle]
@[simp] theorem changeEvents_link (pre s : State) : (changeEvents pre s).link = s.link := by
  unfold changeEvents; dsimp only; split <;> split <;> rfl

/-- Outside LOADING the end of a happening leaves the engine and the link as the engine's turn leaves them. -/
theorem settle_engine {b : Bool} {p m : State} (h : m.control.station ≠ .loading) :
    (settle b p m).engine = (engineSettle p m).engine := by simp [settle, h]

theorem settle_link {b : Bool} {p m : State} (h : m.control.station ≠ .loading) :
    (settle b p m).link = (engineSettle p m).link := by simp [settle, h]

/-- The state in which the end of a happening places its notices. -/
def beforeNotices (p m : State) : State :=
  if p.link.normal.length < normalPlaces then trimExcess (planRecalls p m)
  else builderTurn p (trimExcess (planRecalls p m))

theorem engineSettle_of_speaks {p m : State} (h : m.control.station.speaks = true) : engineSettle p m
    = startAsks askPlaces (requeueAsks askPlaces (builderTurn p (checkDrain (placeNotices (beforeNotices p m))))) := by
  simp only [engineSettle, h, ↓reduceIte, beforeNotices]

theorem not_loading_of_speaks {x : Station} (h : x.speaks = true) : x ≠ .loading := by
  rintro rfl
  cases h

theorem settle_table {b : Bool} {p m : State} (h : m.control.station.speaks = true) :
    (settle b p m).engine.table = (placeNotices (beforeNotices p m)).engine.table := by
  rw [settle_engine (not_loading_of_speaks h), engineSettle_of_speaks h]
  simp

/-- Distinct keys stay distinct up to the placing of notices. -/
theorem distinct_beforeNotices (p : State) {m : State} (h : Distinct m.engine.table) :
    Distinct (beforeNotices p m).engine.table := by
  have hd : Distinct (trimExcess (planRecalls p m)).engine.table :=
    (((Bargains.refl (b := true) (c := True) m).planRecalls p).trimExcess).distinct h
  unfold beforeNotices
  split
  · exact hd
  · rwa [builderTurn_table]

/-- A happening of a speaking station that leaves its normal queue a place leaves no notice owed (R12, R13). -/
theorem owed_none_of_settle {b : Bool} {p m : State} (hd : Distinct m.engine.table)
    (hs : m.control.station.speaks = true) (h : normalRoom (settle b p m) = true) :
    ∀ r ∈ (settle b p m).engine.table, r.owed = none := by
  rw [settle_table hs]
  refine owed_none_of_room (distinct_beforeNotices p hd) ?_
  simp only [normalRoom, settle_link (not_loading_of_speaks hs), engineSettle_of_speaks hs, decide_eq_true_eq] at h ⊢
  calc (placeNotices (beforeNotices p m)).link.normal.length
      = (checkDrain (placeNotices (beforeNotices p m))).link.normal.length := by rw [checkDrain_link]
    _ ≤ _ := length_le_builderTurn p _
    _ ≤ _ := length_le_requeueAsks askPlaces _
    _ ≤ _ := length_le_startAsks askPlaces _
    _ < _ := h

end Sys2Proof.Machine
end

section
/-! SUPPORT. The laws of the tables through the acts of a happening: keys, asks and reserved places, the entries, the
counters. -/

namespace Sys2Proof.Machine

variable {H : Prop} {s t : State}

/-! ### Keys and aims -/

/-- The laws that tie the records' keys and the asks' aims together: whose the supplier of a record is (R1), one taker-side
record with each supplier (R2), at most 4 asks (R40), an ask for a new contract only to a supplier with none (R43), and a
place of the Contract Table reserved for each of those (R9, R10). -/
structure KeyLaws (own : Nat) (ks : List (Nat × Nat × Side × Nat)) (as : List (Nat × Option Nat)) : Prop where
  owned : ∀ k ∈ ks, k.1 = match k.2.2.1 with | .supply => own | .take => k.2.2.2
  takes : ks.Pairwise fun j k => j.2.2.1 = .take → k.2.2.1 = .take → j.1 ≠ k.1
  few : as.length ≤ askPlaces
  apart : ∀ a ∈ as, a.2 = none → ∀ k ∈ ks, k.2.2.1 = .take → k.1 ≠ a.1
  places : ks.length + (as.filter fun a => a.2.isNone).length ≤ contractPlaces

theorem KeyLaws.sublist {own : Nat} {ks ks' : List (Nat × Nat × Side × Nat)} {as as' : List (Nat × Option Nat)}
    (h : KeyLaws own ks as) (hk : ks'.Sublist ks) (ha : as'.Sublist as) : KeyLaws own ks' as' where
  owned k hm := h.owned k (hk.subset hm)
  takes := h.takes.sublist hk
  few := ha.length_le.trans h.few
  apart a hm hn k hkm := h.apart a (ha.subset hm) hn k (hk.subset hkm)
  places := (Nat.add_le_add hk.length_le (ha.filter _).length_le).trans h.places

theorem reservedPlaces_eq (s : State) :
    reservedPlaces s = ((s.engine.asks.map Ask.aim).filter fun a => a.2.isNone).length := by
  simp [reservedPlaces, List.filter_map, Function.comp_def, Ask.aim]

theorem takeWith_eq_none_iff (s : State) (a : Nat) :
    takeWith s a = none ↔ ∀ k ∈ s.engine.table.map Record.key, k.2.2.1 = .take → k.1 ≠ a := by
  simp only [takeWith, List.find?_eq_none, List.mem_map, forall_exists_index, and_imp, forall_apply_eq_imp_iff₂]
  simp [Record.isTake, Record.key]

/-! ### The entries -/

/-- The laws of the Peer Table: address order without the own address, fields in range (R18). -/
def EntryLaws (own : Nat) (ps : List Peer) : Prop :=
  ps.Pairwise (fun p q => p.addr < q.addr) ∧ (∀ p ∈ ps, p.addr ≠ own) ∧ ∀ p ∈ ps, p.inOrder = true

theorem EntryLaws.sublist {own : Nat} {ps qs : List Peer} (h : EntryLaws own ps) (k : qs.Sublist ps) :
    EntryLaws own qs := by
  obtain ⟨h1, h2, h3⟩ := h
  exact ⟨h1.sublist k, fun p hp => h2 p (k.subset hp), fun p hp => h3 p (k.subset hp)⟩

/-- Entries with the same addresses, each in its ranges. -/
theorem EntryLaws.of_addrs {own : Nat} {ps qs : List Peer} (h : EntryLaws own ps)
    (e : qs.map Peer.addr = ps.map Peer.addr) (hq : ∀ q ∈ qs, q.inOrder = true) : EntryLaws own qs := by
  obtain ⟨h1, h2, -⟩ := h
  refine ⟨?_, fun q hm => ?_, hq⟩
  · rw [← List.pairwise_map (R := fun a b : Nat => a < b)] at h1 ⊢
    rwa [e]
  · have hmem : q.addr ∈ ps.map Peer.addr := e ▸ List.mem_map_of_mem hm
    obtain ⟨p, hp, he⟩ := List.mem_map.mp hmem
    exact he ▸ h2 p hp

/-- An entry in its place among the others. -/
theorem EntryLaws.insert {own : Nat} {ps : List Peer} {p : Peer} (h : EntryLaws own ps) (hp : p.addr ≠ own)
    (hi : p.inOrder = true) : EntryLaws own (insertPeer p ps) := by
  obtain ⟨h1, h2, h3⟩ := h
  refine ⟨?_, fun q hq => ?_, fun q hq => ?_⟩
  · clear h2 h3
    induction ps with
    | nil => simp [insertPeer]
    | cons x ps ih =>
      obtain ⟨hx, hps⟩ := List.pairwise_cons.mp h1
      unfold insertPeer
      split
      · rename_i hlt
        refine List.pairwise_cons.mpr ⟨fun q hq => ?_, h1⟩
        rcases List.mem_cons.mp hq with rfl | hq
        · exact hlt
        · exact hlt.trans (hx q hq)
      · split
        · rename_i he
          exact List.pairwise_cons.mpr ⟨fun q hq => he ▸ hx q hq, hps⟩
        · refine List.pairwise_cons.mpr ⟨fun q hq => ?_, ih hps⟩
          rcases mem_insertPeer p hq with rfl | hq
          · omega
          · exact hx q hq
  · rcases mem_insertPeer p hq with rfl | hq
    · exact hp
    · exact h2 q hq
  · rcases mem_insertPeer p hq with rfl | hq
    · exact hi
    · exact h3 q hq

/-- Bargaining sets skip flags at most. -/
theorem EntryLaws.of_aside {own : Nat} (h : EntryLaws own s.peers) (e : aside t = aside s) : EntryLaws own t.peers := by
  refine h.of_addrs (peers_of_aside e) fun q hq => ?_
  have hmem : { q with skip := false } ∈ s.peers.map fun p => { p with skip := false } := by
    have : t.peers.map (fun p => { p with skip := false }) = s.peers.map fun p => { p with skip := false } :=
      congrArg (fun x => x.peers) e
    exact this ▸ List.mem_map_of_mem hq
  obtain ⟨p, hp, he⟩ := List.mem_map.mp hmem
  have h1 : Peer.inOrder { p with skip := false } = p.inOrder := rfl
  have h2 : Peer.inOrder { q with skip := false } = q.inOrder := rfl
  rw [← h2, ← he, h1]
  exact h.2.2 p hp

/-! ### The laws together -/

/-- What the acts of a happening keep of the tables: the laws of keys, ranges and entries, with the laws they rest on. -/
structure TablesHold (s : State) : Prop where
  covered : PeersCover s
  entries : EntryLaws (ownAddress s) s.peers
  keyed : KeyLaws (ownAddress s) (s.engine.table.map Record.key) (s.engine.asks.map Ask.aim)
  fits : Fits s
  counted : (1 ≤ s.engine.nextContract ∧ s.engine.nextContract ≤ 255)
    ∧ 1 ≤ s.engine.nextRequest ∧ s.engine.nextRequest ≤ 15
  silent : s.control.station.speaks = false → s.engine.table = []
  asking : s.engine.asks ≠ [] → s.control.station = .joined ∧ s.engine.role = .taker
  came : ∀ f ∈ s.link.inbound, f.cameIn = true

theorem tablesOrdered_iff (s : State) : TablesOrdered s ↔
    (s.peers.Pairwise (fun p q => p.addr < q.addr) ∧ ∀ p ∈ s.peers, p.addr ≠ ownAddress s)
      ∧ KeyLaws (ownAddress s) (s.engine.table.map Record.key) (s.engine.asks.map Ask.aim)
      ∧ Distinct s.engine.table ∧ DistinctAsks s.engine.asks
      ∧ 1 ≤ s.engine.nextContract ∧ s.engine.nextContract ≤ 255 := by
  constructor
  · rintro ⟨h1, h2, h3, h4, h5, h6, h7, h8, h9, h10⟩
    refine ⟨⟨h1, h2⟩, ⟨?_, ?_, by simpa using h6, ?_, ?_⟩, h3, h7, h10⟩
    · intro k hk
      obtain ⟨r, hr, rfl⟩ := List.mem_map.mp hk
      exact h4 r hr
    · rw [List.pairwise_map]; exact h5
    · intro x hx hn
      obtain ⟨a, ha, rfl⟩ := List.mem_map.mp hx
      exact (takeWith_eq_none_iff s _).mp (h8 a ha hn)
    · rw [← reservedPlaces_eq, List.length_map]; exact h9
  · rintro ⟨⟨h1, h2⟩, hk, h3, h7, h10⟩
    refine ⟨h1, h2, h3, fun r hr => hk.owned _ (List.mem_map_of_mem hr), ?_, by simpa using hk.few, h7,
      fun a ha hn => (takeWith_eq_none_iff s _).mpr (hk.apart _ (List.mem_map_of_mem (f := Ask.aim) ha) hn), ?_, h10⟩
    · have := hk.takes
      rwa [List.pairwise_map] at this
    · have := hk.places
      rwa [← reservedPlaces_eq, List.length_map] at this

/-- The laws of the tables, but for the notices owed. -/
theorem tablesSound_of_hold (h : TablesHold s)
    (ho : normalRoom s = true → ∀ r ∈ s.engine.table, r.owed = none) : TablesSound s := by
  obtain ⟨hd, hr, ha, hi⟩ := h.fits
  obtain ⟨hp, ho', hpi⟩ := h.entries
  obtain ⟨hc, hq1, hq2⟩ := h.counted
  exact ⟨(tablesOrdered_iff s).mpr ⟨⟨hp, ho'⟩, h.keyed, hd, ha, hc⟩, hpi, hr, hi, hq1, hq2, ho⟩

theorem ownAddress_of_control (h : t.control = s.control) : ownAddress t = ownAddress s := by
  simp only [ownAddress, cfg, h]

/-- A state with the same tables, roles and Station Control. -/
theorem TablesHold.of_same (h : TablesHold s) (hc : t.control = s.control) (hp : t.peers = s.peers)
    (ht : t.engine.table = s.engine.table) (ha : t.engine.asks = s.engine.asks)
    (hrole : s.engine.asks ≠ [] → s.engine.role = .taker → t.engine.role = .taker)
    (hn : t.engine.nextContract = s.engine.nextContract) (hq : t.engine.nextRequest = s.engine.nextRequest)
    (hi : ∀ f ∈ t.link.inbound, f.cameIn = true) : TablesHold t where
  covered := h.covered.of_addrs (fun r hr' => ⟨r, ht ▸ hr', rfl⟩) (by rw [hp])
  entries := by rw [ownAddress_of_control hc, hp]; exact h.entries
  keyed := by rw [ownAddress_of_control hc, ht, ha]; exact h.keyed
  fits := by unfold Fits; rw [ht, ha]; exact h.fits
  counted := by rw [hn, hq]; exact h.counted
  silent := by rw [hc, ht]; exact h.silent
  asking := by
    rw [hc, ha]
    exact fun hne => ⟨(h.asking hne).1, hrole hne (h.asking hne).2⟩
  came := hi

/-- Bargaining keeps the laws. -/
theorem TablesHold.of_bargains {b : Bool} {c : Prop} (h : TablesHold s) (hc : c) (k : Bargains b c s t) :
    TablesHold t where
  covered := h.covered.of_bargains k
  entries := by rw [ownAddress_of_control k.control]; exact h.entries.of_aside k.frame
  keyed := by rw [ownAddress_of_control k.control]; exact h.keyed.sublist (k.keys h.fits.1) k.asks
  fits := k.fits hc h.fits
  counted := by rw [k.nextContract, k.nextRequest]; exact h.counted
  silent hs := by
    rw [k.control] at hs
    simpa [h.silent hs] using k.keys h.fits.1
  asking hne := by
    rw [k.control, k.role]
    refine h.asking fun he => hne ?_
    simpa [he] using k.asks
  came := by rw [k.inbound]; exact h.came

end Sys2Proof.Machine
end

section
/-! SUPPORT. Every act of a happening, and its end, keeps the laws of the tables. -/

namespace Sys2Proof.Machine

variable {H : Prop} {s t : State}

/-! ### Contract ids (R11) -/

theorem nextId_iterate {i : Nat} (h1 : 1 ≤ i) (h2 : i ≤ 255) (k : Nat) : nextId^[k] i = (i - 1 + k) % 255 + 1 := by
  induction k with
  | zero => simp only [Function.iterate_zero_apply]; omega
  | succ k ih =>
    rw [Function.iterate_succ_apply', ih]
    unfold nextId
    split <;> omega

theorem nextId_range {i : Nat} (h1 : 1 ≤ i) (h2 : i ≤ 255) : 1 ≤ nextId i ∧ nextId i ≤ 255 := by
  unfold nextId
  split <;> omega

theorem allocateId_range (s : State) (n : Nat) {i : Nat} (h1 : 1 ≤ i) (h2 : i ≤ 255) :
    1 ≤ allocateId s n i ∧ allocateId s n i ≤ 255 := by
  induction n generalizing i with
  | zero => exact ⟨h1, h2⟩
  | succ n ih =>
    unfold allocateId
    split
    · exact ih (nextId_range h1 h2).1 (nextId_range h1 h2).2
    · exact ⟨h1, h2⟩

/-- An id in use is allocated only where every candidate is in use. -/
theorem idInUse_of_allocateId {n i : Nat} (h : idInUse s (allocateId s n i) = true) :
    ∀ k < n, idInUse s (nextId^[k] i) = true := by
  induction n generalizing i with
  | zero => nofun
  | succ n ih =>
    unfold allocateId at h
    split at h
    · rename_i hi
      intro k hk
      cases k with
      | zero => exact hi
      | succ k => exact ih h k (by omega)
    · rename_i hi
      exact absurd h hi

/-- Of 17 candidates one is free, while fewer than 16 records stand. -/
theorem idInUse_allocateId (h : s.engine.table.length < contractPlaces) {i : Nat} (h1 : 1 ≤ i) (h2 : i ≤ 255) :
    idInUse s (allocateId s 17 i) = false := by
  by_contra hc
  have hall := idInUse_of_allocateId (by simpa using hc)
  have hnodup : ((List.range 17).map fun k => nextId^[k] i).Nodup := by
    refine List.Nodup.map_on (fun x hx y hy e => ?_) List.nodup_range
    have hx := List.mem_range.mp hx
    have hy := List.mem_range.mp hy
    rw [nextId_iterate h1 h2, nextId_iterate h1 h2] at e
    omega
  have hsub : ((List.range 17).map fun k => nextId^[k] i) ⊆ s.engine.table.map Record.id := by
    intro x hx
    obtain ⟨k, hk, rfl⟩ := List.mem_map.mp hx
    have := hall k (List.mem_range.mp hk)
    simp only [idInUse, List.any_eq_true, Bool.and_eq_true, beq_iff_eq] at this
    obtain ⟨r, hr, -, he⟩ := this
    exact List.mem_map.mpr ⟨r, hr, he⟩
  have := (List.subperm_of_subset hnodup hsub).length_le
  simp only [List.length_map, List.length_range, contractPlaces] at this h
  omega

/-! ### New records -/

theorem addr_known (h : EntryLaws (ownAddress s) s.peers) {a : Nat} (hk : knownPeer s a = true) :
    addressOk a = true ∧ a ≠ ownAddress s := by
  obtain ⟨-, ho, hi⟩ := h
  simp only [knownPeer, List.any_eq_true, beq_iff_eq] at hk
  obtain ⟨p, hp, rfl⟩ := hk
  have hin := hi p hp
  simp only [Peer.inOrder, Bool.and_eq_true] at hin
  exact ⟨hin.1, ho p hp⟩

/-- A record whose key none has, in order, at the end of the table. -/
theorem Distinct.append {l : List Record} {n : Record} (h : Distinct l)
    (hn : ∀ r ∈ l, ¬ (r.supplier = n.supplier ∧ r.id = n.id)) : Distinct (l ++ [n]) := by
  refine List.pairwise_append.mpr ⟨h, List.pairwise_singleton _ _, fun q hq r hr => ?_⟩
  rw [List.mem_singleton.mp hr]
  exact hn q hq

theorem Acts.grants_hold {taker asked rid : Nat} (hr : Resting s) (h : TablesHold s)
    (hs : s.control.station.speaks = true) (hrole : s.engine.role = .supplier)
    (hp : s.engine.table.length < contractPlaces) (hk : knownPeer s taker = true) (ha : 1 ≤ asked) (hf : 1 ≤ free s) :
    TablesHold (grantNew taker rid asked s) := by
  have e := aside_grantNew taker rid asked s
  have hcontrol : (grantNew taker rid asked s).control = s.control := control_of_aside (s := idTaken s) e
  have htab := grantNew_table taker rid asked s
  have hasks : (grantNew taker rid asked s).engine.asks = s.engine.asks := by simp [grantNew, answer, addRecord]
  have hnil : s.engine.asks = [] := by
    by_contra hne
    have := (h.asking hne).2
    rw [hrole] at this
    cases this
  obtain ⟨⟨hn1, hn2⟩, hq⟩ := h.counted
  obtain ⟨hid1, hid2⟩ := allocateId_range s 17 hn1 hn2
  have hfree := idInUse_allocateId hp hn1 hn2
  obtain ⟨htaker, -⟩ := addr_known h.entries hk
  obtain ⟨hd, hrec, hda, hao⟩ := h.fits
  have hown : addressOk (ownAddress s) = true := by
    obtain ⟨-, ⟨hcfg, hok, -⟩, -⟩ := hr
    obtain ⟨c, hc⟩ := Option.isSome_iff_exists.mp (hcfg (unloaded_of_speaks hs))
    simpa [ownAddress, cfg, hc] using (hok c hc).1
  have hnew : (grantedRecord taker asked s).inOrder = true := by
    have h1 : amountOk (min (min asked (free s).toNat) maxAmount) = true := by
      have hpos : 1 ≤ (free s).toNat := by omega
      simp only [amountOk, maxAmount, decide_eq_true_eq, le_min_iff, min_le_iff]
      exact ⟨⟨⟨ha, hpos⟩, by decide⟩, .inr (le_refl _)⟩
    have h2 : contractIdOk (allocateId s 17 s.engine.nextContract) = true := by simp [contractIdOk, hid1, hid2]
    simp only [Record.inOrder, grantedRecord, hown, htaker, h1, h2]
    rfl
  constructor
  · exact PeersCover.of_new (s := idTaken s) h.covered htab (peers_of_aside e) hk
  · rw [ownAddress_of_control hcontrol]
    exact EntryLaws.of_aside (s := idTaken s) h.entries e
  · rw [ownAddress_of_control hcontrol, htab, hasks, hnil, List.map_append]
    obtain ⟨ko, kt, -, -, kp⟩ := h.keyed
    refine ⟨fun k hk => ?_, ?_, Nat.zero_le _, nofun, by simpa using hp⟩
    · rcases List.mem_append.mp hk with hk | hk
      · exact ko k hk
      · rw [List.mem_singleton.mp hk]; rfl
    · refine List.pairwise_append.mpr ⟨kt, List.pairwise_singleton _ _, fun j _ k hk _ hkt => ?_⟩
      rw [List.mem_singleton.mp hk] at hkt
      cases hkt
  · unfold Fits
    rw [htab, hasks]
    refine ⟨hd.append fun r hr hkey => ?_, fun r hr => ?_, hda, hao⟩
    · obtain ⟨hsup, hid⟩ := hkey
      have howned := h.keyed.owned r.key (List.mem_map_of_mem hr)
      cases hside : r.side with
      | supply =>
        simp only [idInUse, List.any_eq_false, Bool.and_eq_true, beq_iff_eq, not_and] at hfree
        exact hfree r hr (by simp [Record.isSupply, hside]) hid
      | take =>
        simp only [Record.key, hside] at howned
        exact (addr_known h.entries (h.covered r hr)).2 (howned.symm.trans hsup)
    · rcases List.mem_append.mp hr with hr | hr
      · exact hrec r hr
      · rw [List.mem_singleton.mp hr]; exact hnew
  · have e1 : (grantNew taker rid asked s).engine.nextContract = nextId (allocateId s 17 s.engine.nextContract) :=
      congrArg (fun x => x.engine.nextContract) e
    have e2 : (grantNew taker rid asked s).engine.nextRequest = s.engine.nextRequest :=
      congrArg (fun x => x.engine.nextRequest) e
    rw [e1, e2]
    exact ⟨nextId_range hid1 hid2, hq⟩
  · rw [hcontrol, hs]; nofun
  · rw [hasks, hnil]; exact fun hne => absurd rfl hne
  · have e3 : (grantNew taker rid asked s).link.inbound = s.link.inbound := inbound_of_aside (s := idTaken s) e
    rw [e3]; exact h.came

theorem Acts.contracts_hold {src id amount : Nat} {v : Revision} {a : Ask} (h : TablesHold s)
    (hs : s.control.station.speaks = true) (ha : a ∈ s.engine.asks) (hsup : a.supplier = src) (hr : a.raised = none)
    (hk : knownPeer s src = true) (hid : contractIdOk id = true) (hamount : amountOk amount = true) :
    TablesHold (addRecord ⟨src, id, .take, src, amount, v, .active, none, 0⟩ (removeAsk src s)) := by
  generalize hn : (⟨src, id, .take, src, amount, v, .active, none, 0⟩ : Record) = n
  have e : aside (addRecord n (removeAsk src s)) = aside s := by simp
  have hcontrol := control_of_aside e
  have htab : (addRecord n (removeAsk src s)).engine.table = s.engine.table ++ [n] := by simp [addRecord]
  have hasks : (addRecord n (removeAsk src s)).engine.asks = s.engine.asks.filter fun b => b.supplier != src := by
    simp [addRecord, removeAsk_asks]
  obtain ⟨hsrc, hown⟩ := addr_known h.entries hk
  obtain ⟨hd, hrec, hda, hao⟩ := h.fits
  obtain ⟨ko, kt, kf, ka, kp⟩ := h.keyed
  have hapart := ka _ (List.mem_map_of_mem (f := Ask.aim) ha) hr
  simp only [Ask.aim, hsup] at hapart
  constructor
  · exact h.covered.of_new htab (peers_of_aside e) (by rw [← hn]; exact hk)
  · rw [ownAddress_of_control hcontrol]; exact h.entries.of_aside e
  · rw [ownAddress_of_control hcontrol, htab, hasks, List.map_append]
    have hsub : ((s.engine.asks.filter fun b => b.supplier != src).map Ask.aim).Sublist (s.engine.asks.map Ask.aim) :=
      List.filter_sublist.map _
    refine ⟨fun k hk' => ?_, ?_, hsub.length_le.trans kf, fun x hx hxn k hk' hkt => ?_, ?_⟩
    · rcases List.mem_append.mp hk' with hk' | hk'
      · exact ko k hk'
      · rw [List.mem_singleton.mp hk', ← hn]; rfl
    · refine List.pairwise_append.mpr ⟨kt, List.pairwise_singleton _ _, fun j hj k hk' hjt _ => ?_⟩
      rw [List.mem_singleton.mp hk', ← hn]
      exact hapart j hj hjt
    · rcases List.mem_append.mp hk' with hk' | hk'
      · exact ka x (hsub.subset hx) hxn k hk' hkt
      · rw [List.mem_singleton.mp hk', ← hn]
        obtain ⟨b, hb, rfl⟩ := List.mem_map.mp hx
        have := (List.mem_filter.mp hb).2
        simp only [bne_iff_ne, ne_eq] at this
        exact fun he => this he.symm
    · have hmem : a ∈ s.engine.asks.filter fun b => b.raised.isNone := List.mem_filter.mpr ⟨ha, by simp [hr]⟩
      have hlt : ((s.engine.asks.filter fun b => b.raised.isNone).filter fun b => b.supplier != src).length
          < (s.engine.asks.filter fun b => b.raised.isNone).length := by
        rw [List.length_filter_lt_length_iff_exists]
        exact ⟨a, hmem, by simp [hsup]⟩
      simp only [List.length_append, List.length_map, List.length_cons, List.length_nil, List.filter_map,
        Function.comp_def, Ask.aim, List.filter_filter] at kp hlt ⊢
      simp only [Bool.and_comm] at hlt ⊢
      omega
  · unfold Fits
    rw [htab, hasks]
    refine ⟨hd.append fun r hr' hkey => ?_, fun r hr' => ?_, hda.filter _, fun x hx => hao x (List.mem_filter.mp hx).1⟩
    · rw [← hn] at hkey
      cases hside : r.side with
      | supply =>
        have howned := ko r.key (List.mem_map_of_mem hr')
        simp only [Record.key, hside] at howned
        exact hown (hkey.1.symm.trans howned)
      | take => exact hapart r.key (List.mem_map_of_mem hr') hside hkey.1
    · rcases List.mem_append.mp hr' with hr' | hr'
      · exact hrec r hr'
      · rw [List.mem_singleton.mp hr', ← hn]
        simp [Record.inOrder, hsrc, hid, hamount]
  · have e1 : (addRecord n (removeAsk src s)).engine.nextContract = s.engine.nextContract :=
      congrArg (fun x => x.engine.nextContract) e
    have e2 : (addRecord n (removeAsk src s)).engine.nextRequest = s.engine.nextRequest :=
      congrArg (fun x => x.engine.nextRequest) e
    rw [e1, e2]; exact h.counted
  · rw [hcontrol, hs]; nofun
  · rw [hcontrol, show (addRecord n (removeAsk src s)).engine.role = s.engine.role from
      congrArg (fun x => x.engine.role) e]
    exact fun _ => h.asking (List.ne_nil_of_mem ha)
  · rw [inbound_of_aside e]; exact h.came

/-! ### Every act -/

/-- Empty tables meet the laws. -/
theorem tablesHold_of_empty (hp : s.peers = []) (ht : s.engine.table = []) (ha : s.engine.asks = [])
    (hn : 1 ≤ s.engine.nextContract ∧ s.engine.nextContract ≤ 255)
    (hq : 1 ≤ s.engine.nextRequest ∧ s.engine.nextRequest ≤ 15) (hi : ∀ f ∈ s.link.inbound, f.cameIn = true) :
    TablesHold s where
  covered := .of_nil ht
  entries := by rw [hp]; exact ⟨.nil, nofun, nofun⟩
  keyed := by rw [ht, ha]; exact ⟨nofun, .nil, Nat.zero_le _, nofun, Nat.zero_le _⟩
  fits := by unfold Fits; rw [ht, ha]; exact ⟨.nil, nofun, .nil, nofun⟩
  counted := ⟨hn, hq⟩
  silent _ := ht
  asking hne := absurd ha hne
  came := hi

/-- With no record and no ask, the entries alone count. -/
theorem TablesHold.of_cleared (h : TablesHold s) (ho : ownAddress t = ownAddress s) (hp : t.peers.Sublist s.peers)
    (ht : t.engine.table = []) (ha : t.engine.asks = []) (hn : t.engine.nextContract = s.engine.nextContract)
    (hq : t.engine.nextRequest = s.engine.nextRequest) (hi : ∀ f ∈ t.link.inbound, f.cameIn = true) : TablesHold t where
  covered := .of_nil ht
  entries := by rw [ho]; exact h.entries.sublist hp
  keyed := by rw [ht, ha]; exact ⟨nofun, .nil, Nat.zero_le _, nofun, Nat.zero_le _⟩
  fits := by unfold Fits; rw [ht, ha]; exact ⟨.nil, nofun, .nil, nofun⟩
  counted := by rw [hn, hq]; exact h.counted
  silent _ := ht
  asking hne := absurd ha hne
  came := hi

theorem TablesHold.consumed {f : Frame} {rest : List Frame} (h : TablesHold s) (hi : s.link.inbound = f :: rest) :
    TablesHold (consumed rest s) :=
  h.of_same rfl rfl rfl rfl (fun _ => id) rfl rfl fun g hg => h.came g (hi ▸ List.mem_cons_of_mem f hg)

/-- Outside JOINED no ask pends. -/
theorem TablesHold.asks_nil (h : TablesHold s) (hj : s.control.station ≠ .joined ∨ s.engine.role ≠ .taker) :
    s.engine.asks = [] := by
  by_contra hne
  obtain ⟨h1, h2⟩ := h.asking hne
  rcases hj with hj | hj
  · exact hj h1
  · exact hj h2

theorem tablesHold_reset (c : ResetCause) (straps : BitVec 2) (s : State) : TablesHold (resetStation c straps s) :=
  have h : 1 ≤ 1 ∧ 1 ≤ 255 ∧ 1 ≤ 15 := by decide
  tablesHold_of_empty rfl rfl rfl ⟨h.1, h.2.1⟩ ⟨h.1, h.2.2⟩ nofun

theorem Acts.tablesHold (a : Acts True s t) (hr : Resting s) (h : TablesHold s) : TablesHold t := by
  cases a with
  | clock n =>
    exact h.of_same (by simp) (by simp) (by simp) (by simp) (fun _ => by simp) (by simp) (by simp)
      (by simpa using h.came)
  | restarts => exact tablesHold_reset ..
  | bargains _ hc k => exact h.of_bargains hc k
  | @reconciles f rest d t hi hd _ k =>
    refine (h.consumed hi).of_bargains ?_ k
    have := h.came f (hi ▸ List.mem_cons_self)
    simpa [Frame.cameIn, hd] using this
  | consumes hi => exact h.consumed hi
  | grants taker asked rid hs hrole hp hk ha hf => exact Acts.grants_hold hr h hs hrole hp hk ha hf
  | contracts hs ha hsup hra hk hid hamount => exact Acts.contracts_hold h hs ha hsup hra hk hid hamount
  | @updates a g hg =>
    have haddrs : (updatePeer a g s).peers.map Peer.addr = s.peers.map Peer.addr :=
      updatePeer_addrs fun p hp ha => (hg p hp ha).1
    have hent : EntryLaws (ownAddress s) (updatePeer a g s).peers := by
      refine h.entries.of_addrs haddrs fun q hq => ?_
      obtain ⟨p, hp, rfl⟩ := List.mem_map.mp hq
      have hpo := h.entries.2.2 p hp
      split
      · rename_i e
        exact (hg p hp (by simpa using e)).2 hpo
      · exact hpo
    exact { h with covered := h.covered.of_addrs (fun r hr' => ⟨r, hr', rfl⟩) haddrs, entries := hent }
  | @meets src d hh hd ha ho =>
    have hent : EntryLaws (ownAddress s) (createPeer src d s).peers :=
      h.entries.insert (p := newPeer src d s) ho (newPeer_inOrder hd ha s)
    exact { h with covered := (Acts.meets (H := True) hh hd ha ho).peersCover h.covered, entries := hent }
  | loses a =>
    have hcov := peersCover_losePeer a h.covered
    obtain ⟨c, f, q, e⟩ := losePeer_eq a s
    rw [e] at hcov ⊢
    have htab : (if knownPeer s a = true then s.engine.table.filter fun r => r.counterpart != a
        else s.engine.table).Sublist s.engine.table := by
      split
      · exact List.filter_sublist
      · exact .refl _
    have hask : (if knownPeer s a = true then s.engine.asks.filter fun b => b.supplier != a
        else s.engine.asks).Sublist s.engine.asks := by
      split
      · exact List.filter_sublist
      · exact .refl _
    obtain ⟨hd, hrec, hda, hao⟩ := h.fits
    exact {
      covered := hcov
      entries := h.entries.sublist List.filter_sublist
      keyed := h.keyed.sublist (htab.map _) (hask.map _)
      fits := ⟨hd.sublist htab, fun r hr' => hrec r (htab.subset hr'), hda.sublist hask,
        fun x hx => hao x (hask.subset hx)⟩
      counted := h.counted
      silent := fun hs => List.sublist_nil.mp (h.silent hs ▸ htab)
      asking := fun hne => h.asking fun he => hne (List.sublist_nil.mp (he ▸ hask))
      came := h.came }
  | faults code supply hl =>
    exact { h with
      silent := fun _ => h.silent (by rw [hl]; rfl)
      asking := fun hne => absurd (h.asks_nil (.inl (by simp [hl]))) hne }
  | adopts supply hl =>
    obtain ⟨-, -, hp, ht, ha, -⟩ := hr.1 (by rw [hl]; rfl)
    exact tablesHold_of_empty hp ht ha h.counted.1 h.counted.2 h.came
  | joins i rail hl =>
    have hask := h.asks_nil (.inl (by simp [hl]))
    obtain ⟨_, _, _, e, -⟩ := enterJoined_eq i rail s
    rw [e]
    exact { h with silent := nofun, asking := fun hne => absurd hask hne }
  | listens ho =>
    exact { h with
      silent := fun _ => h.silent (by rw [ho]; rfl)
      asking := fun hne => absurd (h.asks_nil (.inl (by simp [ho]))) hne }
  | @leaves u r d f hj k ha =>
    have hask : u.engine.asks = [] := by
      by_cases hrole : s.engine.role = .taker
      · exact ha hrole
      · have hnil := h.asks_nil (.inr hrole)
        have hsub : (u.engine.asks.map Ask.aim).Sublist (s.engine.asks.map Ask.aim) := k.asks
        simpa [hnil] using hsub
    have hcov : PeersCover u := PeersCover.of_bargains (s := leavingNow s) h.covered k
    have hown : ownAddress u = ownAddress s := by
      have hc := k.control
      simp only [ownAddress, cfg, hc, leavingNow, stopRailWatch]
    have hent : EntryLaws (ownAddress s) u.peers := EntryLaws.of_aside (s := leavingNow s) h.entries k.frame
    have hkeys : KeyLaws (ownAddress s) (u.engine.table.map Record.key) (u.engine.asks.map Ask.aim) :=
      h.keyed.sublist (k.keys h.fits.1) k.asks
    have hfits : Fits u := k.fits trivial h.fits
    have hn : u.engine.nextContract = s.engine.nextContract := k.nextContract
    have hq : u.engine.nextRequest = s.engine.nextRequest := k.nextRequest
    have hin : u.link.inbound = s.link.inbound := k.inbound
    rw [← hown] at hent hkeys
    exact {
      covered := hcov, entries := hent, keyed := hkeys, fits := hfits
      counted := by rw [hn, hq]; exact h.counted
      silent := fun hs => by simp [k.control, leavingNow, Station.speaks] at hs
      asking := fun hne => absurd hask hne
      came := by rw [hin]; exact h.came }
  | conflicts =>
    obtain ⟨_, e, -⟩ := enterDuplicate_eq s
    rw [e]
    exact h.of_cleared rfl (.refl _) rfl rfl rfl rfl nofun
  | concludes hc =>
    obtain ⟨_, k, _, e, -, -, hk, hn⟩ := enterOffline_spec s
    have hnil : s.engine.asks = [] := by
      refine h.asks_nil ?_
      rcases hc with hc | ⟨-, hc⟩
      · exact .inl (by simp [hc])
      · exact .inr (by simp [hc trivial])
    rw [e]
    exact h.of_cleared rfl (List.nil_sublist _) (hn h.covered) (List.sublist_nil.mp (hnil ▸ hk)) rfl rfl nofun
  | delivers _ _ hf =>
    refine { h with came := fun g hg => ?_ }
    rcases List.mem_append.mp hg with hg | hg
    · exact h.came g hg
    · rw [List.mem_singleton.mp hg]; exact hf
  | trips =>
    exact TablesHold.of_bargains (s := pathTripped s)
      (h.of_same rfl rfl rfl rfl (fun _ => id) rfl rfl h.came) trivial (tripPath_bargains (b := false) s)
  | roles r hj ha => exact h.of_same rfl rfl rfl rfl (fun hne ht => absurd (ha ht) hne) rfl rfl h.came
  | powered => exact { h with covered := h.covered }
  | _ => exact h.of_same rfl rfl rfl rfl (fun _ => id) rfl rfl h.came

/-! ### The end of a happening -/

theorem mem_foldl_best {p : Peer} (l : List Peer) (x : Option Peer) (h : l.foldl (fun best q => match best with
    | none => some q
    | some b => if b.spare < q.spare then some q else some b) x = some p) : x = some p ∨ p ∈ l := by
  induction l generalizing x with
  | nil => exact .inl h
  | cons q l ih =>
    rcases ih _ h with h | h
    · cases x with
      | none =>
        obtain rfl : q = p := by simpa using h
        exact .inr List.mem_cons_self
      | some b =>
        simp only at h
        split at h
        · exact .inr (by simp_all)
        · exact .inl h
    · exact .inr (List.mem_cons_of_mem q h)

theorem mem_bestCandidate {p : Peer} (h : bestCandidate s = some p) : p ∈ s.peers ∧ isCandidate s p = true := by
  rcases mem_foldl_best _ none h with h | h
  · cases h
  · exact List.mem_filter.mp h

/-- The conditions of R42, one by one. -/
theorem mayAsk_iff (s : State) : mayAsk s = true ↔ s.control.station = .joined ∧ s.engine.role = .taker
    ∧ s.path.state ≠ .tripped ∧ s.engine.suspendEnd = none ∧ (cfg s).minGrant ≤ need s
    ∧ s.engine.asks.length < askPlaces ∧ normalRoom s = true := by
  simp [mayAsk, and_assoc]

/-- The conditions of R43, one by one. -/
theorem isCandidate_iff (s : State) (p : Peer) : isCandidate s p = true ↔ p.liveness = .active ∧ p.role = .supplier
    ∧ (cfg s).minGrant ≤ p.spare ∧ findAsk s p.addr = none ∧ p.skip = false
    ∧ (∀ r, takeWith s p.addr = some r → r.isActive = true ∧ (cfg s).minGrant ≤ maxAmount - r.amount)
    ∧ (takeWith s p.addr = none → s.engine.table.length + reservedPlaces s < contractPlaces) := by
  unfold isCandidate
  cases takeWith s p.addr <;> simp [and_assoc]

/-- What the new ask asks for lies between the minimum grant and the contract ceiling. -/
theorem newAsk_amount {p : Peer} (hneed : (cfg s).minGrant ≤ need s) (hc : isCandidate s p = true)
    (hm : 1 ≤ (cfg s).minGrant) : 1 ≤ (newAsk p s).amount ∧ (newAsk p s).amount ≤ maxAmount := by
  obtain ⟨-, -, hspare, -, -, hsome, -⟩ := (isCandidate_iff s p).mp hc
  cases hw : takeWith s p.addr with
  | none =>
    simp only [newAsk, hw, maxAmount]
    omega
  | some r =>
    have := (hsome r hw).2
    simp only [newAsk, hw, maxAmount] at this ⊢
    omega

theorem takeWith_spec {a : Nat} {r : Record} (h : takeWith s a = some r) :
    r ∈ s.engine.table ∧ r.side = .take ∧ r.supplier = a := by
  have hm := List.mem_of_find?_eq_some h
  have := List.find?_some h
  simp only [Bool.and_eq_true, beq_iff_eq, Record.isTake, decide_eq_true_eq] at this
  exact ⟨hm, this.1, this.2⟩

theorem tablesHold_startAsk {p : Peer} (hm : mayAsk s = true) (hb : bestCandidate s = some p) (hr : Resting s)
    (h : TablesHold s) : TablesHold (startAsk p s) := by
  obtain ⟨hj, hrole, -, -, hneed, hlen, -⟩ := (mayAsk_iff s).mp hm
  obtain ⟨hp, hc⟩ := mem_bestCandidate hb
  obtain ⟨-, -, -, hfind, -, -, hplace⟩ := (isCandidate_iff s p).mp hc
  have hmin : 1 ≤ (cfg s).minGrant := by
    obtain ⟨-, ⟨hcfg, hok, -⟩, -⟩ := hr
    obtain ⟨c, hcc⟩ := Option.isSome_iff_exists.mp (hcfg (by rw [hj]; rfl))
    simpa [cfg, hcc] using (hok c hcc).2
  obtain ⟨ha1, ha2⟩ := newAsk_amount hneed hc hmin
  obtain ⟨hd, hrec, hda, hao⟩ := h.fits
  obtain ⟨ko, kt, kf, ka, kp⟩ := h.keyed
  obtain ⟨hn, hq1, hq2⟩ := h.counted
  obtain ⟨n, e⟩ := startAsk_eq p hm
  have hraised : (newAsk p s).raised = (takeWith s p.addr).map Record.id := rfl
  have hin : (newAsk p s).inOrder = true := by
    have haddr : addressOk p.addr = true := by
      have := h.entries.2.2 p hp
      simp only [Peer.inOrder, Bool.and_eq_true] at this
      exact this.1
    have hid : (newAsk p s).raised.all contractIdOk = true := by
      rw [hraised]
      cases hw : takeWith s p.addr with
      | none => rfl
      | some r =>
        obtain ⟨-, hid, -⟩ := (Record.inOrder_iff r).mp (hrec r (takeWith_spec hw).1)
        exact hid
    have hmn : (newAsk p s).minimum = min (cfg s).minGrant (newAsk p s).amount := rfl
    simp only [Ask.inOrder, hid, hmn, Bool.and_eq_true, amountOk, decide_eq_true_eq, and_true]
    exact ⟨⟨haddr, ha1, ha2⟩, hq1, hq2, le_min hmin ha1, Nat.min_le_right _ _, Nat.zero_le _⟩
  rw [e]
  constructor
  · exact h.covered
  · exact h.entries
  · show KeyLaws (ownAddress s) _ _
    rw [List.map_append]
    refine ⟨ko, kt, ?_, fun x hx hxn k hk hkt => ?_, ?_⟩
    · simpa using hlen
    · rcases List.mem_append.mp hx with hx | hx
      · exact ka x hx hxn k hk hkt
      · rw [List.mem_singleton.mp hx] at hxn ⊢
        have hw : takeWith s p.addr = none := by simpa [Ask.aim, hraised] using hxn
        exact (takeWith_eq_none_iff s p.addr).mp hw k hk hkt
    · rw [List.filter_append, List.length_append]
      cases hw : takeWith s p.addr with
      | none =>
        have := hplace hw
        rw [reservedPlaces_eq] at this
        simp only [List.length_map] at this ⊢
        have h1 := List.length_filter_le (fun a : Nat × Option Nat => a.2.isNone) ([newAsk p s].map Ask.aim)
        simp only [List.map_cons, List.map_nil, List.length_cons, List.length_nil] at h1 ⊢
        omega
      | some r =>
        have hx : ([newAsk p s].map Ask.aim).filter (fun a => a.2.isNone) = [] := by simp [Ask.aim, hraised, hw]
        rw [hx]
        exact kp
  · refine ⟨hd, hrec, ?_, fun x hx => ?_⟩
    · refine List.pairwise_append.mpr ⟨hda, List.pairwise_singleton _ _, fun x hx y hy => ?_⟩
      rw [List.mem_singleton.mp hy]
      have hsup : (newAsk p s).supplier = p.addr := rfl
      simpa [hsup] using List.find?_eq_none.mp hfind x hx
    · rcases List.mem_append.mp hx with hx | hx
      · exact hao x hx
      · rw [List.mem_singleton.mp hx]; exact hin
  · refine ⟨hn, ?_⟩
    dsimp only
    split
    · decide
    · omega
  · exact h.silent
  · exact fun _ => ⟨hj, hrole⟩
  · exact h.came

@[simp] theorem movePath_peers (s : State) : (movePath s).peers = s.peers :=
  congrArg (fun s => s.peers) (outside_movePath s)
@[simp] theorem moveTimer_peers (s : State) : (moveTimer s).peers = s.peers :=
  congrArg (fun s => s.peers) (outside_moveTimer s)

theorem tablesHold_ends : EndsKeep fun s => Resting s ∧ TablesHold s where
  bargains s t hs k h := ⟨resting_ends.bargains s t hs k h.1, h.2.of_bargains trivial k⟩
  turn pre s hs h := by
    refine ⟨resting_ends.turn pre s hs h.1, ?_⟩
    obtain ⟨c, d, l, e, -⟩ := builderTurn_eq pre s
    rw [e]
    exact h.2.of_same rfl rfl rfl rfl (fun _ => id) rfl rfl h.2.came
  drain s hs h := by
    refine ⟨resting_ends.drain s hs h.1, ?_⟩
    rcases checkDrain_eq s with e | ⟨r, d, f, p, e, -, x, u, hx, -⟩
    · rw [e]; exact h.2
    · rw [e]
      refine h.2.of_same rfl rfl rfl rfl (fun _ ht => ?_) rfl rfl h.2.came
      rcases hx with ⟨hx, -⟩ | ⟨hx, -⟩ <;> simp [hx] at ht
  ask p s hm hb h := ⟨resting_ends.ask p s hm hb h.1, tablesHold_startAsk hm hb h.1 h.2⟩
  path s hl h := ⟨resting_ends.path s hl h.1,
    h.2.of_same (by simp) (by simp) (by simp) (by simp) (fun _ => by simp) (by simp) (by simp) (by simpa using h.2.came)⟩
  timer s h := ⟨resting_ends.timer s h.1,
    h.2.of_same (by simp) (by simp) (by simp) (by simp) (fun _ => by simp) (by simp) (by simp) (by simpa using h.2.came)⟩
  watches s p e1 e2 e3 h := ⟨resting_ends.watches s p e1 e2 e3 h.1,
    h.2.of_same rfl rfl rfl rfl (fun _ => id) rfl rfl h.2.came⟩
  flags s f i h := ⟨h.1, h.2.of_same rfl rfl rfl rfl (fun _ => id) rfl rfl h.2.came⟩

/-- The laws that the tables' soundness rests on. -/
def TablesFounded (s : State) : Prop :=
  TablesSound s ∧ QueuesBounded s ∧ PeersCover s ∧ RolesSound s ∧ RestsUnloaded s ∧ Silent s

theorem tablesHold_of_founded (h : TablesFounded s) : TablesHold s := by
  obtain ⟨⟨ho, hpi, hri, hai, hq1, hq2, -⟩, ⟨hcame, -⟩, hcov, ⟨-, hsides, hasks, -, hidle, -⟩, -, -⟩ := h
  obtain ⟨⟨hp, hown⟩, hk, hd, hda, hn⟩ := (tablesOrdered_iff s).mp ho
  exact {
    covered := hcov
    entries := ⟨hp, hown, hpi⟩
    keyed := hk
    fits := ⟨hd, hri, hda, hai⟩
    counted := ⟨hn, hq1, hq2⟩
    silent := fun hs => by
      rw [List.eq_nil_iff_forall_not_mem]
      intro r hr
      obtain ⟨h1, h2⟩ := hsides r hr
      have hrole := hidle hs
      cases hside : r.side with
      | supply => simpa [hrole, Role.supplies] using h1 hside
      | take => simpa [hrole, Role.takes] using h2 hside
    asking := fun hne => ⟨(hasks hne).1, (hasks hne).2.1⟩
    came := hcame }

theorem tablesSound_leads : Leads TablesFounded TablesSound where
  weakens _ h := h.1
  before _ _ _ _ _ _ _ _ h := h
  behind _ _ _ _ _ _ _ _ h := h
  ackEnds t s h := by
    obtain ⟨h1, h2, h3, h4, h5, h6⟩ := h
    exact ⟨h1, h2, h3, h4, h5, silent_leads.ackEnds t s h6⟩
  reset c straps s := tablesSound_of_hold (tablesHold_reset c straps s) nofun
  held c straps _ s := (tablesSound_of_hold (tablesHold_reset c straps s) nofun : TablesSound (resetStation c straps s))
  happening b i p h hr := by
    obtain ⟨-, -, -, ⟨hleaving, -⟩, hrests, hsilent⟩ := id h
    obtain ⟨h1, h2⟩ := (restsUnloaded_iff hr).mp hrests
    have keeps : ∀ x y, Acts True x y → (Resting x ∧ TablesHold x) → Resting y ∧ TablesHold y := fun _ _ a k =>
      ⟨a.resting k.1, a.tablesHold k.1 k.2⟩
    have hmid : Resting (effect i p) ∧ TablesHold (effect i p) :=
      (effect_run i fun _ => hleaving).keeps keeps ⟨⟨h1, h2, hsilent, hr⟩, tablesHold_of_founded h⟩
    obtain ⟨-, hend⟩ := tablesHold_ends.settle b p hmid
    refine tablesSound_of_hold hend fun hroom => ?_
    cases hs : (effect i p).control.station.speaks with
    | true => exact owed_none_of_settle hmid.2.fits.1 hs hroom
    | false =>
      rw [hend.silent (by simpa using hs)]
      nofun

/-- Settles O9: every act keeps the laws of keys and ranges, asks start only in their ranges, and the notices owed are placed
while the queue has a place. -/
theorem tablesSoundKept : Obligations.TablesSoundKept := fun _ _ h1 h2 h3 h4 h5 h6 e =>
  tablesSound_leads.step ⟨h1, h2, h3, h4, h5, h6⟩ e

end Sys2Proof.Machine
end

section
/-! SUPPORT. The machine's step, its resets and the end of the load. -/

namespace Sys2Proof.Machine

/-- A command that is a happening, of a station that is not held in reset. -/
theorem exec_happens {i : Instr} {b : Bool} {dt : Nat} {e : State → State} {s : State}
    (h : exec i s = .next (happen b dt e s)) (hr : s.control.resetHeld = false) :
    exec i s = .next (settle b (advance dt s) (e (advance dt s))) := by
  rw [h, happen_of_not_held _ _ _ _ hr]

/-- Settles O1: a step takes the front command off the queue and runs it. -/
theorem stepRunsFrontCommand : Obligations.StepRunsFrontCommand := by
  intro c rest s h
  simp [step, h]

/-- Settles O2: the reset state is written out by its definition. -/
theorem resetValues : Obligations.ResetValues := by
  refine ⟨rfl, rfl, rfl, rfl, rfl, rfl, rfl, rfl, rfl, rfl, rfl, rfl, rfl, rfl, rfl, rfl, rfl, rfl, rfl, rfl, rfl, rfl, rfl,
    rfl, rfl, rfl, rfl, rfl, rfl, rfl, rfl, rfl, rfl, rfl, rfl, rfl, rfl, rfl, rfl, rfl, rfl, rfl, rfl⟩

/-! ### Resets -/

/-- The state right after a reset of any state, with the levels and counters that outlast it. -/
theorem state_reset_eq : ∃ s, State.reset = resetStation .powerOn State.reset.host.straps s := ⟨State.reset, rfl⟩

/-- Settles O3: the reset state is one that a reset command leaves, which meets the laws every step keeps; its role, link and
Host Port are empty. -/
theorem resetIsSound : Obligations.ResetIsSound := by
  obtain ⟨s, e⟩ := state_reset_eq
  have hleaving : LeavingAgrees State.reset := ⟨nofun, nofun⟩
  refine ⟨?_, ?_, ?_, ?_, ?_, ?_, ⟨hleaving, ⟨nofun, nofun⟩, ⟨Nat.zero_le _, rfl⟩⟩,
    ⟨hleaving, nofun, fun h => absurd rfl h, nofun, fun _ => rfl, nofun⟩, ?_, ?_⟩
  · rw [e]; exact outputsAgree_leads.reset ..
  · rw [e]; exact pathOpenAtZero_leads.reset ..
  · rw [e]; exact queuesBounded_leads.reset ..
  · rw [e]; exact fun _ => quiet_initial _
  · exact .of_nil rfl
  · rw [e]; exact tablesSound_leads.reset ..
  · rw [e]; exact countersInRange_leads.reset ..
  · rw [e]; exact restsUnloaded_leads.reset ..

/-- A reset leaves outputs that follow the state. -/
theorem drive_resetStation (c : ResetCause) (straps : BitVec 2) (s : State) :
    drive (resetStation c straps s) = resetStation c straps s := by
  simp [drive, resetStation, HostPort.initial, PathCtl.initial, intLevel]

theorem resetStation_advance (c : ResetCause) (straps : BitVec 2) (dt : Nat) (s : State) :
    resetStation c straps (advance dt s) = { resetStation c straps s with
      control := Control.initial c (s.now + dt), now := s.now + dt } := by
  simp [resetStation]

/-- A RESTART that may be taken resets the station, whatever the Result Queue holds. -/
theorem exec_restart {q : Request} {rest : List Request} {s : State} (dt : Nat) (straps : BitVec 2)
    (h1 : s.control.resetHeld = false) (h2 : s.control.station ≠ .loading) (h3 : s.host.requests = q :: rest)
    (h4 : q.kind.toNat = 10) : exec (.restart ⟨dt, straps⟩) s = .next (resetStation .command straps (advance dt s)) := by
  have hk : q.kind = restartCode := BitVec.eq_of_toNat_eq h4
  have ht : takeable s = some q := by simp [takeable, h3, h2, hk]
  rw [exec_happens (i := .restart ⟨dt, straps⟩) rfl h1, takeRestart, takeable_advance, ht]
  simp only [hk, ↓reduceIte]
  rw [settle_of_loading rfl, drive_resetStation]

/-- Settles O21: each reset command is a reset of the station, held or not. -/
theorem resetCommandsReset : Obligations.ResetCommandsReset := by
  intro dt straps s blank
  refine ⟨fun h => ?_, fun h => ?_, ?_, fun h => ?_, fun q rest h1 h2 h3 h4 => ?_⟩
  · show (.next (powerOn straps (advance dt s)) : Answer) = _
    simp [powerOn, h, resetStation, blank]
  · show (.next (powerOn straps (advance dt s)) : Answer) = _
    simp [powerOn, h, resetStation, holdReset, blank]
  · show (.next (pinResetNow (advance dt s)) : Answer) = _
    simp [pinResetNow, resetStation, holdReset, blank]
  · show (.next (releaseReset straps (advance dt s)) : Answer) = _
    simp [releaseReset, h, resetStation, blank]
  · rw [exec_restart dt straps h1 h2 h3 h4, resetStation_advance]
    rfl

/-- Settles O34: the restarted station, with the readings and the counter it keeps. -/
theorem restartResets : Obligations.RestartResets := by
  intro dt straps q rest s h1 h2 h3 h4
  refine ⟨s.path.pathSense, s.path.railSense, s.host.draws, ?_⟩
  rw [exec_restart dt straps h1 h2 h3 h4, resetStation_advance]
  rfl

/-- Settles O22: no happening takes place, and no read, while RESET is asserted. -/
theorem heldResetHolds : Obligations.HeldResetHolds := by
  intro i s hr ho hi
  have hread (n : Nat) (u : State) (hu : u.control.resetHeld = true) : readTransaction n u = u := by
    simp [readTransaction, hu]
  obtain ⟨t, e, ⟨n, rfl⟩ | ⟨n, b, a, r, rfl⟩⟩ := exec_of_not_reset s hi
  · refine ⟨_, e, ?_⟩
    rw [hread n _ (by simpa using hr), advance_of_ackOut_none _ _ ho]
    exact ⟨Nat.le_add_right _ _, rfl⟩
  · refine ⟨_, e, ?_⟩
    generalize hu : ({ s with path := { s.path with pathSense := a, railSense := r } } : State) = u
    have hru : u.control.resetHeld = true := by rw [← hu]; exact hr
    have hou : u.link.ackOut = none := by rw [← hu]; exact ho
    rw [happen_of_held _ _ _ _ hru, hread n _ (by simpa using hru), advance_of_ackOut_none _ _ hou, ← hu]
    exact ⟨Nat.le_add_right _ _, rfl⟩

/-! ### The end of the load -/

/-- A load that ends in LOADING. -/
theorem loadDone_of_loading {s : State} {t0 : Nat} (hl : s.control.station = .loading)
    (h0 : s.control.loadStart = some t0) (image : Option (List Byte)) (supply : Bool) : loadDone image supply s
      = endLoad (if t0 + memoryReadTime < s.now then .fault .noMemory else checkImage image) supply s := by
  simp [loadDone, hl, h0]

/-- Settles O23: the read is judged by its time and then by the checks of the image. -/
theorem loadEnds : Obligations.LoadEnds := by
  intro dt t0 image supply s p failed adopted hr hl h0
  have hlp : p.control.station = .loading := by simpa [p] using hl
  have h0p : p.control.loadStart = some t0 := by simpa [p] using h0
  have hnow : p.now = s.now + dt := by simp [p]
  have hexec : exec (.loadComplete dt image supply) s = .next (settle false p (loadDone image supply p)) :=
    exec_happens rfl hr
  have intime (h : s.now + dt ≤ t0 + 12500) : ¬ t0 + memoryReadTime < p.now := by
    rw [hnow]; exact Nat.not_lt.mpr h
  refine ⟨fun code h hc => ?_, fun c h hc => ?_, fun h => ?_, ?_⟩
  · rw [hexec, loadDone_of_loading hlp h0p, if_neg (intime h), hc]
    rfl
  · rw [hexec, loadDone_of_loading hlp h0p, if_neg (intime h), hc]
    rfl
  · have hlate : t0 + memoryReadTime < p.now := by rw [hnow]; exact h
    rw [hexec, loadDone_of_loading hlp h0p, if_pos hlate]
    rfl
  · have e : exec (.memoryTimeout dt supply) s = .next (settle false p (loadTimedOut supply p)) :=
      exec_happens rfl hr
    rw [e]
    simp only [loadTimedOut, hlp, h0p]
    rfl

end Sys2Proof.Machine
end

section
/-! SUPPORT. The host's writes and reads: the bytes of a transaction one by one, each at the location the pointer has
reached. -/

namespace Sys2Proof.Machine

/-! ### The pointer -/

/-- The state with the location pointer set. -/
def pointed (x : BitVec 16) (s : State) : State := { s with host := { s.host with pointer := x } }

theorem pointed_pointed (x y : BitVec 16) (s : State) : pointed x (pointed y s) = pointed x s := rfl

/-- The two bytes that set the pointer, put together. -/
theorem upper_or_lower (h l : Byte) : upper h ||| lower l = h ++ l := by
  unfold upper lower
  rw [BitVec.append_def, BitVec.shiftLeftZeroExtend_eq, BitVec.setWidth'_eq]

theorem writeByte_pointed (a : Nat) (b : Byte) (masked : Bool) (x : BitVec 16) (s : State) :
    writeByte a b masked (pointed x s) = pointed x (writeByte a b masked s) := by
  unfold writeByte
  split
  case h_11 =>
    by_cases h : s.host.requests.length < requestPlaces <;> simp [commitStaged, pointed, h, setEvent]
  all_goals rfl

@[simp] theorem takeable_pointed (x : BitVec 16) (s : State) : takeable (pointed x s) = takeable s := rfl
@[simp] theorem popServes_pointed (x : BitVec 16) (s : State) : popServes (pointed x s) = popServes s := rfl

/-- A write of two bytes and more writes from the pointer they set. -/
theorem writeTransaction_pair (h l : Byte) (rest : List Byte) (s : State) :
    writeTransaction (h :: l :: rest) s = writeBytes rest false false (pointed (h ++ l) s) := by
  rw [← upper_or_lower]
  rfl

/-- One byte is applied at the pointer, which goes on. -/
theorem writeBytes_cons (b : Byte) (bs : List Byte) (masked served : Bool) (x : BitVec 16) (s : State) :
    writeBytes (b :: bs) masked served (pointed x s)
      = writeBytes bs (masked || x.toNat == 0x012 || x.toNat == 0x013) (served || (x.toNat == 0x01B && popServes s))
          (pointed (nextPointer x) (writeByte x.toNat b masked s)) := by
  show writeBytes bs _ _ (pointed (nextPointer x) (writeByte x.toNat b masked (pointed x s))) = _
  rw [writeByte_pointed, pointed_pointed]
  rfl

theorem writeBytes_nil (masked : Bool) (s : State) : writeBytes [] masked false s = s := rfl

/-- The pointer goes on by one below the window's last location. -/
theorem nextPointer_of_lt {x : BitVec 16} (h : x.toNat < 0x184) : nextPointer x = x + 1 := by
  simp [nextPointer, windowLast, Nat.ne_of_lt h]

/-- A byte outside the regions that may be written has no effect. -/
theorem writeByte_outside {a : Nat} (h : a < 0x010 ∨ 0x01C ≤ a) (b : Byte) (masked : Bool) (s : State) :
    writeByte a b masked s = s := by
  unfold writeByte
  split <;> first | omega | rfl

theorem exec_commit {s : State} (dt : Nat) (v : Byte) (hr : s.control.resetHeld = false) : exec (.commit dt v) s
    = .next (settle false (advance dt s) (pointed 0x01B (commitStaged (advance dt s)))) := by
  rw [exec_happens (i := .commit dt v) rfl hr, writeTransaction_pair, writeBytes_cons]
  rfl

/-- What a write to the pop location comes to. -/
theorem exec_pop {s : State} (dt : Nat) (v : Byte) (hr : s.control.resetHeld = false) : exec (.pop dt v) s
    = .next (settle false (advance dt s) (if popServes (advance dt s) = true
        then takeHead (pointed 0x01C (popResult (advance dt s))) else pointed 0x01C (popResult (advance dt s)))) := by
  rw [exec_happens (i := .pop dt v) rfl hr, writeTransaction_pair, writeBytes_cons]
  cases h : popServes (advance dt s) <;> rfl

/-- A RESTART at the head waits for no result place. -/
theorem takeHead_pointed (x : BitVec 16) (s : State) (h : popServes s = false) (hn : takeable s = none) :
    takeHead (pointed x (popResult s)) = pointed x (popResult s) := by
  have : takeable (popResult s) = none := by simpa [popServes, hn] using h
  simp [takeHead, this]

/-- Settles O25: the transaction is one byte at a known location; a pop takes the head request exactly where that waited for
the place. -/
theorem commitAndPop : Obligations.CommitAndPop := by
  intro dt v s hr p
  have hh : s.host = p.host := (advance_host dt s).symm
  rw [exec_commit dt v hr, exec_pop dt v hr, hh, show advance dt s = p from rfl]
  clear_value p
  refine ⟨fun hroom => ?_, fun hfull => ?_, fun hnone => ?_, fun r rest hres hready => ?_, fun r rest hres hwaits => ?_⟩
  · rw [commitStaged, if_pos (show _ < requestPlaces from hroom)]
    rfl
  · rw [commitStaged, if_neg (show ¬ _ < requestPlaces from Nat.not_lt.mpr hfull)]
    rfl
  · have hsame : popResult p = p := by
      rw [popResult_frame, show p.host.results = [] from hnone, List.drop_nil, ← hnone]
    have hserves : popServes p = false := by
      rw [popServes, hsame]; cases takeable p <;> rfl
    rw [hserves, hsame]
    rfl
  · have hserves : popServes p = false := by
      rcases hready with hsome | hempty
      · simp [popServes, Option.isSome_iff_ne_none.mp hsome]
      · have : (popResult p).host.requests = [] := hempty
        simp [popServes, takeable, this]
    rw [hserves, popResult_frame, show p.host.results = r :: rest from hres]
    rfl
  · have hpop : pointed 0x01C (popResult p)
        = { p with host := { p.host with results := rest, pointer := 0x01C } } := by
      rw [popResult_frame, show p.host.results = r :: rest from hres]
      rfl
    rw [← hpop]
    cases hserves : popServes p with
    | true => rfl
    | false => rw [takeHead_pointed _ _ hserves hwaits]; rfl

/-! ### Flags and mask -/

/-- The two bytes of a mask, written one after the other. -/
theorem mask_bytes (h l : Byte) :
    (((0 ||| upper h) &&& eventBits) &&& 0xFF00 ||| lower l) &&& eventBits = (h ++ l) &&& 0x07FF := by
  rw [← upper_or_lower]
  unfold eventBits upper lower
  ext i hi
  interval_cases i <;> simp

/-- The two bytes of a clear, written one after the other. -/
theorem clear_bytes (f : BitVec 16) (h l : Byte) : (f &&& ~~~upper h) &&& ~~~lower l = f &&& ~~~(h ++ l) := by
  rw [← upper_or_lower, BitVec.and_assoc, ← BitVec.not_or]

theorem upper_eq (h : Byte) : upper h = h ++ 0#8 := by rw [← upper_or_lower]; simp [lower]
theorem lower_eq (l : Byte) : lower l = 0#8 ++ l := by rw [← upper_or_lower]; simp [upper]

/-- The flags region written whole. -/
theorem writeTransaction_flags (h l : Byte) (s : State) : writeTransaction [0x00, 0x10, h, l] s
    = pointed 0x012 (clearFlags (h ++ l) s) := by
  rw [writeTransaction_pair, writeBytes_cons, writeBytes_cons, pointed, clearFlags, ← clear_bytes]
  rfl

/-- The mask region written whole. -/
theorem writeTransaction_mask (h l : Byte) (s : State) : writeTransaction [0x00, 0x12, h, l] s
    = pointed 0x014 { s with host := { s.host with mask := (h ++ l) &&& 0x07FF } } := by
  rw [writeTransaction_pair, writeBytes_cons, writeBytes_cons, ← mask_bytes]
  rfl

/-- The two bytes of a region put together. -/
theorem regionBytes_append (h l : Byte) : regionBytes (h ++ l) = [h, l] := by
  have ht : (h ++ l).toNat = 256 * h.toNat + l.toNat := by
    rw [BitVec.toNat_append, ← Nat.shiftLeft_add_eq_or_of_lt l.isLt, Nat.shiftLeft_eq]
    omega
  have hl := l.isLt
  have h1 : BitVec.ofNat 8 ((h ++ l).toNat / 256) = h := by
    apply BitVec.eq_of_toNat_eq; rw [ht, BitVec.toNat_ofNat]; omega
  have h2 : BitVec.ofNat 8 (h ++ l).toNat = l := by
    apply BitVec.eq_of_toNat_eq; rw [ht, BitVec.toNat_ofNat]; omega
  rw [regionBytes, put16, h1, h2]

/-- A sixteen-bit value is its two bytes. -/
theorem exists_append (v : BitVec 16) : ∃ h l : Byte, v = h ++ l := by
  refine ⟨BitVec.ofNat 8 (v.toNat / 256), v.setWidth 8, ?_⟩
  rw [← upper_or_lower, upper_high, lower_low]
  ext i hi
  interval_cases i <;> simp

theorem exec_eventFlagClear {s : State} (dt : Nat) (h l : Byte) (hr : s.control.resetHeld = false) :
    exec (.eventFlagClear dt (h ++ l)) s
      = .next (settle false (advance dt s) (pointed 0x012 (clearFlags (h ++ l) (advance dt s)))) := by
  rw [exec_happens (i := .eventFlagClear dt (h ++ l)) rfl hr, regionBytes_append, writeTransaction_flags]

theorem exec_eventMaskWrite {s : State} (dt : Nat) (h l : Byte) (hr : s.control.resetHeld = false) :
    exec (.eventMaskWrite dt (h ++ l)) s = .next (settle false (advance dt s) (pointed 0x014
      { advance dt s with host := { (advance dt s).host with mask := (h ++ l) &&& 0x07FF } })) := by
  rw [exec_happens (i := .eventMaskWrite dt (h ++ l)) rfl hr, regionBytes_append, writeTransaction_mask]

/-- Settles O26: each row is the write of its region whole. -/
theorem flagsAndMaskWritten : Obligations.FlagsAndMaskWritten := by
  intro dt v s hr p
  obtain ⟨h, l, rfl⟩ := exists_append v
  have hh : s.host = p.host := (advance_host dt s).symm
  rw [exec_eventFlagClear dt h l hr, exec_eventMaskWrite dt h l hr, hh]
  exact ⟨rfl, rfl⟩

/-! ### Host transactions -/

/-- A transaction of writes alone is one happening. -/
theorem exec_hostWrite {s : State} (dt : Nat) (b : Byte) (bytes : List Byte) (hr : s.control.resetHeld = false) :
    exec (.hostWrite dt (b :: bytes) 0) s
      = .next (settle false (advance dt s) (writeTransaction (b :: bytes) (advance dt s))) := by
  show (.next (happen false dt (writeTransaction (b :: bytes)) s) : Answer) = _
  rw [happen_of_not_held _ _ _ _ hr]

/-- A transaction of reads alone. -/
theorem exec_hostRead {s : State} (dt n : Nat) (hn : 0 < n) (hr : s.control.resetHeld = false) :
    exec (.hostWrite dt [] n) s = .next { advance dt s with host := { (advance dt s).host with
      out := readBytes (advance dt s) n s.host.draws s.host.pointer
      pointer := pointerAfter n s.host.pointer
      draws := s.host.draws + n } } := by
  show (.next (readTransaction n (advance dt s)) : Answer) = _
  simp [readTransaction, Nat.ne_of_gt hn, hr]

/-- A byte that neither pops a result nor writes the mask. -/
theorem writeBytes_plain {x y : BitVec 16} (hy : nextPointer x = y) (hpop : (x.toNat == 0x01B) = false) (h2 : (x.toNat == 0x012) = false)
    (h3 : (x.toNat == 0x013) = false) (b : Byte) (bs : List Byte) (masked served : Bool) (s : State) :
    writeBytes (b :: bs) masked served (pointed x s)
      = writeBytes bs masked served (pointed y (writeByte x.toNat b masked s)) := by
  rw [writeBytes_cons, hy, hpop, h2, h3, Bool.false_and, Bool.or_false, Bool.or_false, Bool.or_false]

/-- A byte of the staging region, in its place. -/
def stageByte (a : Nat) (b : Byte) (q : Request) : Request :=
  match a with
  | 0x014 => { q with kind := b }
  | 0x015 => { q with tag := b }
  | 0x016 => { q with arg0 := b }
  | 0x017 => { q with arg1 := b }
  | 0x018 => { q with arg2 := b }
  | _ => { q with arg3 := b }

/-- The state with the staging region changed. -/
def staging (f : Request → Request) (s : State) : State := { s with host := { s.host with staged := f s.host.staged } }

theorem staging_staging (f g : Request → Request) (s : State) : staging g (staging f s) = staging (g ∘ f) s := rfl

/-- What a byte of the staging region does. -/
theorem writeByte_staged {a : Nat} (h1 : 0x014 ≤ a) (h2 : a ≤ 0x019) (b : Byte) (masked : Bool) (s : State) :
    writeByte a b masked s = staging (stageByte a b) s := by
  interval_cases a <;> rfl

/-- Six bytes from 0x014 on stage a request. -/
theorem writeBytes_staging (k g a b c d : Byte) (rest : List Byte) (s : State) :
    writeTransaction ([0x00, 0x14, k, g, a, b, c, d] ++ rest) s = writeBytes rest false false
      (pointed 0x01A { s with host := { s.host with staged := ⟨k, g, a, b, c, d⟩ } }) := by
  show writeTransaction (0x00 :: 0x14 :: k :: g :: a :: b :: c :: d :: rest) s = _
  rw [writeTransaction_pair]
  rw [show ((0x00 : Byte) ++ (0x14 : Byte)) = 0x014#16 from rfl,
    writeBytes_plain (y := 0x015) rfl rfl rfl rfl, writeBytes_plain (y := 0x016) rfl rfl rfl rfl,
    writeBytes_plain (y := 0x017) rfl rfl rfl rfl, writeBytes_plain (y := 0x018) rfl rfl rfl rfl,
    writeBytes_plain (y := 0x019) rfl rfl rfl rfl, writeBytes_plain (y := 0x01A) rfl rfl rfl rfl]
  iterate 6 rw [writeByte_staged (by decide) (by decide)]
  iterate 5 rw [staging_staging]
  rfl

/-- The commit of a request that may wait. -/
theorem commitStaged_of_room {s : State} (h : s.host.requests.length < 4) :
    commitStaged s = { s with host := { s.host with requests := s.host.requests ++ [s.host.staged] } } :=
  if_pos h

/-- One byte of the flags or mask region alone, or one that has no effect: a single write that serves no request. -/
theorem writeTransaction_one (h l b : Byte) (s : State) (hpop : (h ++ l).toNat ≠ 0x01B) :
    writeTransaction [h, l, b] s = pointed (nextPointer (h ++ l)) (writeByte (h ++ l).toNat b false s) := by
  rw [writeTransaction_pair, writeBytes_cons, show ((h ++ l).toNat == 0x01B) = false by simpa using hpop]
  exact if_neg (by simp)

/-- The sixteen bytes from location 0 on are STATUS. -/
theorem readBytes_status (draw : Nat) (s : State) : readBytes s 16 draw 0 = statusBytes s := by
  rfl

/-- The kind of the long request in STATUS. -/
theorem statusLong_eq (o : Option LongRequest) :
    (o.map fun l => l.kind.byte).getD 0 = match o with | some l => l.kind.byte | none => 0 := by
  cases o <;> rfl

/-- The tag of the long request in STATUS. -/
theorem statusTag_eq (o : Option LongRequest) :
    (o.map LongRequest.tag).getD 0 = match o with | some l => l.tag | none => 0 := by
  cases o <;> rfl

/-- Settles O27: each written byte is applied at the location the pointer has reached; a read moves the pointer alone. -/
theorem hostWritesAndReads : Obligations.HostWritesAndReads := by
  intro dt s hr p
  have hh : s.host = p.host := (advance_host dt s).symm
  have hc : s.control = p.control := (advance_control dt s).symm
  have hw (b : Byte) (bytes : List Byte) : exec (.hostWrite dt (b :: bytes) 0) s
      = .next (settle false p (writeTransaction (b :: bytes) p)) := exec_hostWrite dt b bytes hr
  refine ⟨fun k g a b c d => ?_, fun k g a b c d v hroom => ?_, fun a b => ?_, fun h l => ?_, fun h => ?_,
    fun b => ⟨?_, ?_⟩, fun h l => ⟨?_, ?_⟩, fun h => ⟨?_, ?_, ?_, ?_⟩, fun h l b hout => ?_, fun n hn => ?_, fun h0 => ?_⟩
  · rw [hw]
    exact congrArg _ (congrArg _ (writeBytes_staging k g a b c d [] p))
  · rw [hw, show [0x00, 0x14, k, g, a, b, c, d, v] = [0x00, 0x14, k, g, a, b, c, d] ++ [v] from rfl,
      writeBytes_staging, writeBytes_cons, show writeByte (BitVec.toNat 0x01A) v _ _ = commitStaged _ from rfl,
      commitStaged_of_room (by simpa [p] using hroom), hh]
    rfl
  · rw [hw, writeTransaction_pair, writeBytes_cons, writeBytes_cons, hh]
    rfl
  · rw [hw, writeTransaction_pair]
    rfl
  · rw [hw, hh]
    rfl
  · rw [hw]
    exact (exec_happens (i := .commit dt b) rfl hr).symm
  · rw [hw]
    exact (exec_happens (i := .pop dt b) rfl hr).symm
  · rw [hw, writeTransaction_flags, exec_eventFlagClear dt h l hr]
  · rw [hw, writeTransaction_mask, exec_eventMaskWrite dt h l hr]
  · rw [hw, writeTransaction_one _ _ _ _ (by decide), ← upper_eq]
    simp [writeByte]
    rfl
  · rw [hw, writeTransaction_one _ _ _ _ (by decide), ← lower_eq]
    simp [writeByte]
    rfl
  · rw [hw, writeTransaction_one _ _ _ _ (by decide), ← upper_eq, hh]
    rfl
  · rw [hw, writeTransaction_one _ _ _ _ (by decide), ← lower_eq, hh]
    rfl
  · rw [hw, writeTransaction_one _ _ _ _ (by omega), writeByte_outside hout]
    rfl
  · exact exec_hostRead dt n hn hr
  · rw [exec_hostRead dt 16 (by decide) hr, h0, readBytes_status, advance_host]
    refine congrArg _ ?_
    simp only [statusBytes, statusTag_eq, statusLong_eq, bitByte, put16, List.cons_append, List.nil_append,
      advance_control, advance_engine, advance_path, advance_host, p]
    rfl

end Sys2Proof.Machine
end

section
/-! SUPPORT. The requests: each judged with a result place reserved, which its result takes. -/

namespace Sys2Proof.Machine

/-- A request taken in its own row is judged with a result place reserved. -/
theorem exec_taking {i : Instr} {k dt : Nat} {q : Request} {rest : List Request} {s : State} (h : Taking k q rest s)
    {p : Nat → Bool} (hi : exec i s = .next (happen false dt (takeOf p) s)) (hp : p k = true) :
    exec i s = .next (settle false (advance dt s) (judge q (reservedFor rest (advance dt s)))) := by
  rw [exec_happens hi h.1, takeOf_of_taking (h.advance dt) p hp]

/-- A request judged to an outcome by its rule, completed at once. -/
theorem exec_taking_finish {i : Instr} {k dt : Nat} {q : Request} {rest : List Request} {s : State} (h : Taking k q rest s)
    {p : Nat → Bool} (hi : exec i s = .next (happen false dt (takeOf p) s)) (hp : p k = true) {code : ResultCode}
    {m : State} (hj : judge q (reservedFor rest (advance dt s)) = finish q code (reservedFor rest m)) :
    exec i s = .next (settle false (advance dt s) (completed q rest code [] m)) := by
  rw [exec_taking h hi hp, hj, finish_reservedFor]

section Judge

variable {q : Request} {rest : List Request} {s : State}

theorem judge_setDemand (h : q.kind.toNat = 1) : judge q s = takeSetDemand q s := by simp only [judge, h]
theorem judge_setCapacity (h : q.kind.toNat = 2) : judge q s = takeSetCapacity q s := by simp only [judge, h]
theorem judge_setRole (h : q.kind.toNat = 3) : judge q s = takeSetRole q s := by simp only [judge, h]
theorem judge_leave (h : q.kind.toNat = 4) : judge q s = takeLeave q s := by simp only [judge, h]
theorem judge_rejoin (h : q.kind.toNat = 5) : judge q s = takeRejoin q s := by simp only [judge, h]
theorem judge_reclose (h : q.kind.toNat = 6) : judge q s = takeReclose q s := by simp only [judge, h]
theorem judge_clearUnpowered (h : q.kind.toNat = 7) : judge q s = takeClearUnpowered q s := by simp only [judge, h]
theorem judge_readPeers (h : q.kind.toNat = 8) : judge q s = takeReadPeers q s := by simp only [judge, h]
theorem judge_readContracts (h : q.kind.toNat = 9) : judge q s = takeReadContracts q s := by simp only [judge, h]

/-- A kind that is no request's. -/
theorem judge_unknown (h : q.kind.toNat = 0 ∨ 10 < q.kind.toNat) : judge q s = finish q .refusedArg s := by
  unfold judge
  split <;> first | omega | rfl

/-- A SET_ROLE taken in JOINED with a target in range. -/
theorem takeSetRole_of_joined {x : Target} (hj : s.control.station = .joined) (hx : Target.ofCode q.arg0.toNat = some x) :
    takeSetRole q s = changeRole q x s := by
  simp [takeSetRole, hx, hj]

theorem takeSetDemand_of_joined (hj : s.control.station = .joined) (h : q.value ≤ 2000) :
    takeSetDemand q s = finish q .done { s with engine := { s.engine with demand := q.value } } := by
  simp [takeSetDemand, fullScale, hj, Nat.not_lt.mpr h]

theorem takeSetCapacity_of_joined (hj : s.control.station = .joined) (h : q.value ≤ 2000) :
    takeSetCapacity q s = finish q .done { s with engine := { s.engine with capacity := q.value } } := by
  simp [takeSetCapacity, fullScale, hj, Nat.not_lt.mpr h]

theorem takeSetDemand_of_large (h : 2000 < q.value) : takeSetDemand q s = finish q .refusedArg s := if_pos h
theorem takeSetCapacity_of_large (h : 2000 < q.value) : takeSetCapacity q s = finish q .refusedArg s := if_pos h

theorem takeSetDemand_of_not_joined (h : q.value ≤ 2000) (hj : s.control.station ≠ .joined) :
    takeSetDemand q s = finish q .refusedState s :=
  (if_neg (Nat.not_lt.mpr h)).trans (if_pos hj)

theorem takeSetCapacity_of_not_joined (h : q.value ≤ 2000) (hj : s.control.station ≠ .joined) :
    takeSetCapacity q s = finish q .refusedState s :=
  (if_neg (Nat.not_lt.mpr h)).trans (if_pos hj)

/-- A target out of range. -/
theorem takeSetRole_of_large (h : 3 ≤ q.arg0.toNat) : takeSetRole q s = finish q .refusedArg s := by
  have : Target.ofCode q.arg0.toNat = none := by
    unfold Target.ofCode
    split <;> first | omega | rfl
  rw [takeSetRole, this]

theorem ofCode_of_lt {n : Nat} (h : n < 3) : ∃ x, Target.ofCode n = some x := by
  interval_cases n <;> exact ⟨_, rfl⟩

theorem takeSetRole_of_not_joined (h : q.arg0.toNat < 3) (hj : s.control.station ≠ .joined) :
    takeSetRole q s = finish q .refusedState s := by
  obtain ⟨x, hx⟩ := ofCode_of_lt h
  simp [takeSetRole, hx, hj]

/-- The supply test refuses a SET_ROLE toward SUPPLIER of a station that is not on the supplying side. -/
theorem changeRole_supplyFails (h1 : s.engine.role.value ≠ .supplier) (h2 : s.engine.role.value ≠ .drainingSupply)
    (hf : supplyTestFails s = true) : changeRole q .supplier s = finish q .refusedState s := by
  unfold changeRole
  cases hr : s.engine.role with
  | idle => exact if_pos hf
  | taker => exact if_pos hf
  | supplier => exact absurd (by rw [hr]; rfl) h1
  | drainingTake y u =>
    show overtakeDrain q .supplier .taker .drainingTake s = _
    simp [overtakeDrain, hf]
  | drainingSupply y u => exact absurd (by rw [hr]; rfl) h2

/-- A SET_ROLE to the role held. -/
theorem changeRole_same {x : Target} (h : s.engine.role = x.role) : changeRole q x s = finish q .done s := by
  unfold changeRole
  cases x <;> rw [h] <;> rfl

/-- A SET_ROLE from IDLE. -/
theorem changeRole_of_idle {x : Target} (h : s.engine.role = .idle)
    (hx : x = .taker ∨ (x = .supplier ∧ supplyTestFails s = false)) :
    changeRole q x s = finish q .done { s with engine := { s.engine with role := x.role } } := by
  unfold changeRole
  rw [h]
  obtain rfl | ⟨rfl, hf⟩ := hx
  · rfl
  · exact if_neg (by simp [hf])

end Judge

/-- Settles O28: the value is in range and the station JOINED. -/
theorem valuesAreSet : Obligations.ValuesAreSet := by
  intro dt q rest s p hj hv
  have hjp : (reservedFor rest p).control.station = .joined := by simpa [reservedFor, p] using hj
  constructor
  · intro h
    refine exec_taking_finish (i := .setDemand dt) h rfl rfl ?_
    rw [judge_setDemand h.2.2.2.1, takeSetDemand_of_joined hjp hv]
    rfl
  · intro h
    refine exec_taking_finish (i := .setCapacity dt) h rfl rfl ?_
    rw [judge_setCapacity h.2.2.2.1, takeSetCapacity_of_joined hjp hv]
    rfl

/-- Settles O29: each refusal by the rule of its kind, argument before state. -/
theorem requestsRefused : Obligations.RequestsRefused := by
  intro dt q rest s p refused
  have hst : (reservedFor rest p).control.station = s.control.station := advance_control dt s ▸ rfl
  have hrole : (reservedFor rest p).engine.role = s.engine.role := advance_engine dt s ▸ rfl
  have hlong : (reservedFor rest p).host.long = s.host.long := advance_host dt s ▸ rfl
  have hpath : (reservedFor rest p).path.state = s.path.state := advance_path dt s ▸ rfl
  have hsupply : (reservedFor rest p).engine.supply = s.engine.supply := advance_engine dt s ▸ rfl
  have htest : supplyTestFails (reservedFor rest p) = supplyTestFails s := supplyTestFails_advance dt s
  refine ⟨fun k h hk => ?_, fun h hv => ?_, fun h hv => ?_, fun h hv => ?_, fun h hv hj => ?_, fun h hv hj => ?_,
    fun h hv hj => ?_, fun h hv hj h1 h2 hf => ?_, fun h h1 h2 => ?_, fun h h1 h2 => ?_, fun h h1 => ?_, fun h h1 => ?_,
    fun h h1 => ?_⟩
  · refine exec_taking_finish (i := .unknownRequest dt) h rfl (by simpa using hk) (judge_unknown ?_)
    rw [h.2.2.2.1]; exact hk
  · exact exec_taking_finish (i := .setDemand dt) h rfl rfl
      ((judge_setDemand h.2.2.2.1).trans (takeSetDemand_of_large hv))
  · exact exec_taking_finish (i := .setCapacity dt) h rfl rfl
      ((judge_setCapacity h.2.2.2.1).trans (takeSetCapacity_of_large hv))
  · exact exec_taking_finish (i := .setRole dt) h rfl rfl
      ((judge_setRole h.2.2.2.1).trans (takeSetRole_of_large hv))
  · exact exec_taking_finish (i := .setDemand dt) h rfl rfl
      ((judge_setDemand h.2.2.2.1).trans (takeSetDemand_of_not_joined hv (hst ▸ hj)))
  · exact exec_taking_finish (i := .setCapacity dt) h rfl rfl
      ((judge_setCapacity h.2.2.2.1).trans (takeSetCapacity_of_not_joined hv (hst ▸ hj)))
  · exact exec_taking_finish (i := .setRole dt) h rfl rfl
      ((judge_setRole h.2.2.2.1).trans (takeSetRole_of_not_joined hv (hst ▸ hj)))
  · refine exec_taking_finish (i := .setRole dt) h rfl rfl ?_
    rw [judge_setRole h.2.2.2.1, takeSetRole_of_joined (x := .supplier) (hst.trans hj) (by rw [hv]; rfl)]
    exact changeRole_supplyFails (hrole ▸ h1) (hrole ▸ h2) (htest.trans hf)
  · refine exec_taking_finish (i := .leave dt) h rfl rfl ?_
    rw [judge_leave h.2.2.2.1, takeLeave, hst]
    split <;> first | contradiction | rfl
  · refine exec_taking_finish (i := .leave dt) h rfl rfl ?_
    rw [judge_leave h.2.2.2.1, takeLeave, hst, h1]
    have hn : rejoining (reservedFor rest p) = false := by rw [rejoining, hlong, h2]; rfl
    exact if_neg (by rw [hn]; decide)
  · exact exec_taking_finish (i := .rejoin dt) h rfl rfl ((judge_rejoin h.2.2.2.1).trans (if_neg (hst ▸ h1)))
  · exact exec_taking_finish (i := .reclose dt) h rfl rfl ((judge_reclose h.2.2.2.1).trans (if_neg (hpath ▸ h1)))
  · exact exec_taking_finish (i := .clearUnpowered dt) h rfl rfl
      ((judge_clearUnpowered h.2.2.2.1).trans (if_neg (by rw [hsupply, h1]; decide)))

/-- Settles O30: the two moves that need no drain. -/
theorem roleMovesAtOnce : Obligations.RoleMovesAtOnce := by
  intro dt q rest x s p h hj hx
  have hst : (reservedFor rest p).control.station = .joined := by simpa [reservedFor, p] using hj
  have hrole : (reservedFor rest p).engine.role = s.engine.role := advance_engine dt s ▸ rfl
  have htest : supplyTestFails (reservedFor rest p) = supplyTestFails s := supplyTestFails_advance dt s
  have hjudge : judge q (reservedFor rest p) = changeRole q x (reservedFor rest p) := by
    rw [judge_setRole h.2.2.2.1, takeSetRole_of_joined hst hx]
  constructor
  · intro hsame
    exact exec_taking_finish (i := .setRole dt) h rfl rfl (hjudge.trans (changeRole_same (hrole.trans hsame)))
  · intro hidle hto
    exact exec_taking_finish (i := .setRole dt) h rfl rfl
      (hjudge.trans (changeRole_of_idle (hrole.trans hidle) (htest ▸ hto)))

/-- Settles O33: the two requests that change one register, and the two snapshots. -/
theorem otherRequestsDone : Obligations.OtherRequestsDone := by
  intro dt q rest s p
  have hpath : (reservedFor rest p).path.state = s.path.state := advance_path dt s ▸ rfl
  have hsupply : (reservedFor rest p).engine.supply = s.engine.supply := advance_engine dt s ▸ rfl
  have hread (data : List Byte) : complete q.tag q.kind .done data (reservedFor rest p) = completed q rest .done data p := by
    simp [complete, completed, setEvent, reservedFor]
  refine ⟨fun h ht => ?_, fun h hs => ?_, fun h => ?_, fun h => ?_⟩
  · exact exec_taking_finish (i := .reclose dt) h rfl rfl
      ((judge_reclose h.2.2.2.1).trans (if_pos (hpath.trans ht)))
  · exact exec_taking_finish (i := .clearUnpowered dt) h rfl rfl
      ((judge_clearUnpowered h.2.2.2.1).trans (if_pos (hsupply.trans hs)))
  · rw [exec_taking (i := .readPeers dt) h rfl rfl, judge_readPeers h.2.2.2.1, ← advance_peers dt s]
    exact congrArg _ (congrArg _ (hread _))
  · rw [exec_taking (i := .readContracts dt) h rfl rfl, judge_readContracts h.2.2.2.1, ← advance_engine dt s]
    exact congrArg _ (congrArg _ (hread _))

end Sys2Proof.Machine
end

section
/-! SUPPORT. The frames consumed from the inbound queue, each by the rule of its kind: asks and their answers, a taker's
reductions, releases and alerts. -/

namespace Sys2Proof.Machine

/-! ### Frames consumed -/

/-- A command that consumes the frame at the head of the inbound queue. -/
theorem exec_consuming {i : Instr} {k dt : Nat} {b : Bool} {act : Frame → State → State} {f : Frame} {rest : List Frame}
    {s : State} (h : Consuming f rest s) (hi : exec i s = .next (happen b dt (consume k act) s)) (hk : f.body.kind = k)
    (hd : k ≠ 1) : exec i s = .next (settle b (advance dt s) (act f (consumed rest (advance dt s)))) := by
  rw [hi, happen_consume h hk hd]

section Consumed

variable (rest : List Frame) (s : State)

@[simp] theorem normalRoom_consumed : normalRoom (consumed rest s) = normalRoom s := rfl
@[simp] theorem concernedRecord_consumed (a i : Nat) : concernedRecord a i (consumed rest s) = concernedRecord a i s := rfl
@[simp] theorem namedSupply_consumed (a i : Nat) : namedSupply a i (consumed rest s) = namedSupply a i s := rfl
@[simp] theorem findTake_consumed (a i : Nat) : findTake (consumed rest s) a i = findTake s a i := rfl
@[simp] theorem free_consumed : free (consumed rest s) = free s := rfl
@[simp] theorem cfg_consumed : cfg (consumed rest s) = cfg s := rfl
@[simp] theorem ownAddress_consumed : ownAddress (consumed rest s) = ownAddress s := rfl
@[simp] theorem raiseNames_consumed (r : Record) : raiseNames (consumed rest s) r = raiseNames s r := rfl
@[simp] theorem allocateId_consumed (k i : Nat) : allocateId (consumed rest s) k i = allocateId s k i := by
  induction k generalizing i with
  | zero => rfl
  | succ k ih => rw [allocateId, allocateId, ih]; rfl
@[simp] theorem consumed_engine : (consumed rest s).engine = s.engine := rfl
@[simp] theorem consumed_control : (consumed rest s).control = s.control := rfl

end Consumed

/-- The consumed state may answer. -/
theorem room_of_consuming {f : Frame} {rest : List Frame} {s : State} (h : Consuming f rest s) (dt : Nat) :
    normalRoom (consumed rest (advance dt s)) = true := by
  simpa using h.2.2.1

/-- The builder acts in the consumed state. -/
theorem speaks_of_consuming {f : Frame} {rest : List Frame} {s : State} (h : Consuming f rest s) (dt : Nat) :
    (consumed rest (advance dt s)).control.station.speaks = true := by
  simpa using h.2.1

/-! ### Records replaced and answers placed -/

/-- Replacing a record by one that looks different: a change is pending where its amount differs or it closes. -/
theorem putRecord_of_visible {old new : Record} {s : State} (h : findRecord new.supplier new.id s.engine.table = some old)
    (hv : old.visible ≠ new.visible) (hcl : new.isClosing = true → old.isClosing = true) (hs : s.control.station.speaks = true) :
    putRecord new s = { withRecord new s with engine := { (withRecord new s).engine with
      changePending := decide (old.amount ≠ new.amount) || s.engine.changePending } } := by
  by_cases ha : old.amount = new.amount
  · unfold putRecord
    rw [h]
    have hno : ¬ (old.amount ≠ new.amount ∨ new.isClosing = true ∧ old.isClosing = false) := by
      rintro (h' | ⟨h1, h2⟩)
      · exact h' ha
      · simp [hcl h1] at h2
    simp only [hv, hno]
    simp [noteContracts, setEvent, withRecord, Record.hasKey, ha]
  · rw [putRecord_of_found h hv (.inl ha) hs]
    simp [ha, withRecord]

/-- A record found by its number is found by its key. -/
theorem findRecord_of_findTake {s : State} {a i : Nat} {r : Record} (h : findTake s a i = some r) :
    findRecord a i s.engine.table = some r ∧ r.side = .take ∧ r.supplier = a ∧ r.id = i := by
  obtain ⟨-, h1, h2, h3⟩ := findTake_spec h
  exact ⟨(Option.filter_eq_some_iff.mp h).1, h1, h2, h3⟩

theorem findRecord_of_namedSupply {s : State} {a i : Nat} {r : Record} (h : namedSupply a i s = some r) :
    findRecord r.supplier r.id s.engine.table = some r ∧ r.side = .supply ∧ r.supplier = ownAddress s ∧ r.id = i := by
  obtain ⟨-, h1, h2, h3, -⟩ := namedSupply_spec h
  have hf := (Option.filter_eq_some_iff.mp (Option.filter_eq_some_iff.mp h).1).1
  exact ⟨by rw [h2, h3]; exact hf, h1, h2, h3⟩

/-! ### Answers to an ASK -/

section Ask

variable {f : Frame} {s : State} {rid asked minimum id : Nat}

/-- The fields of an ASK in range. -/
theorem ask_inRange (hb : f.body = .ask rid asked minimum id) (h : f.body.inRange = true) :
    1 ≤ minimum ∧ minimum ≤ asked ∧ asked ≤ 400 := by
  rw [hb] at h
  have h' := of_decide_eq_true h
  simp only [maxAmount] at h'
  omega

theorem askConsumed_decline (hb : f.body = .ask rid asked minimum id) {x : Reason}
    (hj : judgeAsk (concernedRecord f.src id s) minimum s = .decline x) (hr : normalRoom s = true) :
    askConsumed f s = withFrame f.src (.decline rid x.code) s := by
  simp only [askConsumed, hb, hj]
  exact answer_of_room hr _ _

theorem askConsumed_hold (hb : f.body = .ask rid asked minimum id)
    (hj : judgeAsk (concernedRecord f.src id s) minimum s = .hold) (hr : normalRoom s = true) :
    askConsumed f s = withFrame f.src (.hold rid (cfg s).holdTime) s := by
  simp only [askConsumed, hb, hj]
  exact answer_of_room hr _ _

/-- A grant of a new contract. -/
theorem askConsumed_grantNew (hb : f.body = .ask rid asked minimum id) (hc : concernedRecord f.src id s = none)
    (hj : judgeAsk none minimum s = .grant) : askConsumed f s = grantNew f.src rid asked s := by
  simp only [askConsumed, hb, hc, hj]

/-- A grant of a raise. -/
theorem askConsumed_grantRaise {r : Record} (hb : f.body = .ask rid asked minimum id)
    (hc : concernedRecord f.src id s = some r) (hj : judgeAsk (some r) minimum s = .grant) :
    askConsumed f s = grantRaise f.src rid asked r s := by
  simp only [askConsumed, hb, hc, hj]

/-- The tests of R64 for a new contract. -/
theorem judgeAsk_new (hr : s.engine.role = .supplier) (hn : s.engine.table.length < 16) (hm : minimum ≤ 400) :
    judgeAsk none minimum s = if (minimum : Int) ≤ free s then .grant
      else if s.engine.table.any (fun x => x.isSupply && x.isOpenGrant) = true then .hold else .decline .noBudget := by
  simp only [judgeAsk, hr, contractPlaces, maxAmount]
  by_cases hf : (minimum : Int) ≤ free s
  · simp [hf, Nat.not_le.mpr hn, Nat.not_lt.mpr hm, not_lt.mpr hf]
  · simp [hf, Nat.not_le.mpr hn, hm, not_le.mp hf]

/-- The tests of R64 for a raise of a record whose grant is settled and which is not in recall. -/
theorem judgeAsk_raise {r : Record} (hr : s.engine.role = .supplier) (ho : r.isOpenGrant = false)
    (hc : r.isRecalling = false) :
    judgeAsk (some r) minimum s = if free s < minimum ∧ minimum ≤ 400 - r.amount
        ∧ s.engine.table.any (fun y => y.isSupply && y.isOpenGrant) = true then .hold
      else if free s < minimum ∨ 400 - r.amount < minimum then .decline .noBudget else .grant := by
  simp [judgeAsk, hr, ho, hc, maxAmount]

theorem judgeAsk_supplier_full (hr : s.engine.role = .supplier) (hn : 16 ≤ s.engine.table.length) :
    judgeAsk none minimum s = .decline .tableFull := by
  simp [judgeAsk, hr, contractPlaces, hn]

theorem judgeAsk_supplier_open {r : Record} (hr : s.engine.role = .supplier) (ho : r.isOpenGrant = true) :
    judgeAsk (some r) minimum s = .hold := by
  simp [judgeAsk, hr, ho]

theorem judgeAsk_supplier_recalled {r : Record} (hr : s.engine.role = .supplier) (ho : r.isOpenGrant = false)
    (hc : r.isRecalling = true) : judgeAsk (some r) minimum s = .decline .noBudget := by
  simp [judgeAsk, hr, ho, hc]

theorem judgeAsk_draining (r : Option Record) (hr : s.engine.role.value = .drainingSupply) :
    judgeAsk r minimum s = .decline .draining := by
  unfold judgeAsk
  cases h : s.engine.role <;> simp_all [Role.value]

theorem judgeAsk_wrongRole (r : Option Record) (h1 : s.engine.role.value ≠ .supplier)
    (h2 : s.engine.role.value ≠ .drainingSupply) : judgeAsk r minimum s = .decline .wrongRole := by
  unfold judgeAsk
  cases h : s.engine.role <;> simp_all [Role.value]

end Ask

/-- Settles O45: the first test of R64 that applies answers, and the answer has a place. -/
theorem askNotGranted : Obligations.AskNotGranted := by
  intro dt rid asked minimum id f rest s p r answered hc hb
  have hroom := room_of_consuming hc dt
  obtain ⟨-, hma, ha⟩ := ask_inRange hb hc.2.2.2.2.2
  have hexec := exec_consuming (i := .consumeAsk dt) hc rfl (by rw [hb]; rfl) (by decide)
  have hr : concernedRecord f.src id (consumed rest p) = r := by simp [p, r]
  have hrole : s.engine.role = (consumed rest p).engine.role := by simp [p]
  have htable : s.engine.table = (consumed rest p).engine.table := by simp [p]
  have hfree : free s = free (consumed rest p) := by simp [p]
  have hcfg : cfg s = cfg (consumed rest p) := by simp [p]
  have declined {x : Reason} (hj : judgeAsk r minimum (consumed rest p) = .decline x) : answered (.decline rid x.code) :=
    hexec.trans (congrArg _ (congrArg _ (askConsumed_decline hb (by rw [hr]; exact hj) hroom)))
  have held (hj : judgeAsk r minimum (consumed rest p) = .hold) :
      answered (.hold rid (cfg (consumed rest p)).holdTime) :=
    hexec.trans (congrArg _ (congrArg _ (askConsumed_hold hb (by rw [hr]; exact hj) hroom)))
  clear_value r
  rw [hrole, htable, hfree, hcfg]
  refine ⟨fun h1 h2 => ?_, fun h1 => ?_, fun h1 h2 h3 => ?_, fun x h1 h2 h3 => ?_, fun x h1 h2 h3 h4 => ?_,
    fun h1 h2 h3 h4 => ?_, fun x h1 h2 h3 h4 h5 => ?_⟩
  · exact declined (x := .wrongRole) (judgeAsk_wrongRole r h1 h2)
  · exact declined (x := .draining) (judgeAsk_draining r h1)
  · exact declined (x := .tableFull) (h2 ▸ judgeAsk_supplier_full h1 h3)
  · exact held (h2 ▸ judgeAsk_supplier_open h1 h3)
  · exact declined (x := .noBudget) (h2 ▸ judgeAsk_supplier_recalled h1 h3 h4)
  · have hj := judgeAsk_new h1 h3 (hma.trans ha)
    rw [if_neg (not_le.mpr h4), ← h2] at hj
    split
    · rename_i ho
      exact held (hj.trans (if_pos ho))
    · rename_i ho
      exact declined (x := .noBudget) (hj.trans (if_neg ho))
  · have hj := judgeAsk_raise (minimum := minimum) h1 h3 h4
    rw [if_pos h5, ← h2] at hj
    split
    · rename_i ho
      exact held (hj.trans (if_pos ho))
    · rename_i ho
      exact declined (x := .noBudget) (hj.trans (if_neg ho))

/-- A new contract is granted: its record, the counter moved on, and the GRANT placed. -/
theorem grantNew_eq {taker rid asked : Nat} {s : State} (hr : normalRoom s = true) (hs : s.control.station.speaks = true) :
    grantNew taker rid asked s =
      let amount := min (min asked (free s).toNat) 400
      let new := allocateId s 17 s.engine.nextContract
      let m := withFrame taker (.grant rid new amount 0)
        (withNewRecord ⟨ownAddress s, new, .supply, taker, amount, 0, .provisional, none, 0⟩ s)
      { m with engine := { m.engine with nextContract := if new = 255 then 1 else new + 1 } } := by
  simp only [grantNew, addRecord_eq _ hs]
  rw [answer_of_room (by simpa [withNewRecord, normalRoom] using hr)]
  rfl

/-- A raise is granted: its record with the prior values, and the GRANT placed. -/
theorem grantRaise_eq {taker rid asked minimum : Nat} {r : Record} {s : State} (hr : normalRoom s = true)
    (hs : s.control.station.speaks = true) (hf : findRecord r.supplier r.id s.engine.table = some r)
    (hact : r.state = .active) (hm : 1 ≤ minimum) (hma : minimum ≤ asked) (hfree : (minimum : Int) ≤ free s)
    (hc : minimum ≤ 400 - r.amount) :
    grantRaise taker rid asked r s =
      let amount := r.amount + min (min asked (free s).toNat) (400 - r.amount)
      withFrame taker (.grant rid r.id amount (r.revision + 1))
        (withRecord { r with amount := amount, revision := r.revision + 1, state := .raising r.amount r.revision } s) := by
  have hne : r.amount ≠ r.amount + min (min asked (free s).toNat) (400 - r.amount) := by omega
  simp only [grantRaise, maxAmount]
  rw [putRecord_of_found (old := r) (by exact hf) (by simp [Record.visible, hact, RecordState.code]) (.inl hne) hs,
    answer_of_room (by simpa [withRecord, normalRoom] using hr)]

/-- Settles O44: both grants, their records and the frame placed. -/
theorem askGranted : Obligations.AskGranted := by
  intro dt rid asked minimum id f rest s p own hc hb hrole hfree
  have hroom := room_of_consuming hc dt
  have hspeaks := speaks_of_consuming hc dt
  obtain ⟨hm, hma, ha⟩ := ask_inRange hb hc.2.2.2.2.2
  have hexec := exec_consuming (i := .consumeAsk dt) hc rfl (by rw [hb]; rfl) (by decide)
  have hrole' : (consumed rest p).engine.role = .supplier := by simpa [p] using hrole
  have hfree' : free s = free (consumed rest p) := by simp [p]
  have htable : s.engine.table = (consumed rest p).engine.table := by simp [p]
  have hnext : s.engine.nextContract = (consumed rest p).engine.nextContract := by simp [p]
  have hid (i : Nat) : allocateId s 17 i = allocateId (consumed rest p) 17 i := by simp [p]
  have hown : own = ownAddress (consumed rest p) := by simp [p, own]
  have hconc : concernedRecord f.src id s = concernedRecord f.src id (consumed rest p) := by simp [p]
  rw [hexec, hfree', hconc, htable, hnext, hid, hown]
  rw [hfree'] at hfree
  change normalRoom (consumed rest p) = true at hroom
  change (consumed rest p).control.station.speaks = true at hspeaks
  show _ ∧ _
  generalize consumed rest p = c at *
  refine ⟨fun hn hlen => ?_, fun r hr hfound hact hceil => ?_⟩
  · have hj : judgeAsk none minimum c = .grant := by
      rw [judgeAsk_new hrole' hlen (hma.trans ha), if_pos hfree]
    rw [askConsumed_grantNew hb hn hj, grantNew_eq hroom hspeaks]
  · have hj : judgeAsk (some r) minimum c = .grant := by
      rw [judgeAsk_raise hrole' (by simp [Record.isOpenGrant, hact]) (by simp [Record.isRecalling, hact]),
        if_neg (by omega), if_neg (by omega)]
    rw [askConsumed_grantRaise hb hr hj, grantRaise_eq hroom hspeaks hfound hact hm hma hfree hceil]

/-! ### Answers to the station's own asks -/

/-- A revision one newer than the newer of two is not the second. -/
theorem newest_succ_ne (v w : Revision) : newest v w + 1 ≠ w := by
  unfold newest
  split
  · bv_omega
  · rename_i h
    intro e
    refine h ?_
    rw [← e]
    simp [newer]

theorem ne_of_newer {v w : Revision} (h : newer v w = true) : w ≠ v := by
  rintro rfl
  simp [newer] at h

section Late

variable {src id : Nat} {v : Revision} {s : State}

/-- A late GRANT of an unknown contract. -/
theorem lateGrant_unknown (h : findTake s src id = none) (hr : normalRoom s = true) :
    lateGrant src id v s = withFrame src (.release src id) s := by
  simp only [lateGrant, h]
  exact answer_of_room hr _ _

/-- A late GRANT of an ACTIVE contract is answered with a TRIM at a revision newer than both. -/
theorem lateGrant_active {r : Record} (h : findTake s src id = some r) (ha : r.state = .active) (hr : normalRoom s = true)
    (hs : s.control.station.speaks = true) :
    lateGrant src id v s =
      let w := newest v r.revision + 1
      let m := withRecord { r with revision := w } s
      withFrame src (.trim id r.amount w) { m with engine := { m.engine with changePending := s.engine.changePending } } := by
  obtain ⟨hf, -, hsup, hid⟩ := findRecord_of_findTake h
  simp only [lateGrant, h, show r.isActive = true by simp [Record.isActive, ha], ↓reduceIte]
  rw [putRecord_of_visible (old := r) (new := { r with revision := newest v r.revision + 1 }) (by rwa [hsup, hid])
      (fun e => newest_succ_ne v r.revision (Prod.mk.inj (Prod.mk.inj e).2).1.symm) (fun h => h) hs,
    answer_of_room (by simpa [withRecord, normalRoom] using hr)]
  simp

/-- A late GRANT of a CLOSING contract. -/
theorem lateGrant_closing {r : Record} (h : findTake s src id = some r) (ha : r.state ≠ .active) :
    lateGrant src id v s = s := by
  simp [lateGrant, h, Record.isActive, ha]

end Late

section Matched

variable {f : Frame} {s : State} {rid : Nat} {a : Ask}

theorem grantConsumed_new {id amount : Nat} {v : Revision} (hb : f.body = .grant rid id amount v)
    (hm : matchingAsk s f.src rid = some a) (ha : findAsk s f.src = some a) (hn : a.raised = none)
    (hs : s.control.station.speaks = true) :
    grantConsumed f s = withNewRecord ⟨f.src, id, .take, f.src, amount, v, .active, none, 0⟩ (withoutAsk a s) := by
  simp only [grantConsumed, hb, hm, hn, removeAsk_of_found ha]
  exact addRecord_eq _ hs

theorem grantConsumed_raise {id amount i : Nat} {v : Revision} (hb : f.body = .grant rid id amount v)
    (hm : matchingAsk s f.src rid = some a) (hn : a.raised = some i) :
    grantConsumed f s = grantToRaise f.src i id amount v s := by
  simp only [grantConsumed, hb, hm, hn]

/-- The normal queue keeps its room when an ask gives up its frame. -/
theorem normalRoom_withoutAsk (h : normalRoom s = true) : normalRoom (withoutAsk a s) = true := by
  have hlt : s.link.normal.length < normalPlaces := by simpa [normalRoom] using h
  have hle : (withoutAsk a s).link.normal.length ≤ s.link.normal.length := by
    simp only [withoutAsk]
    cases a.state with
    | queued ref => exact List.length_filter_le _ _
    | _ => exact Nat.le_refl _
  simpa [normalRoom] using hle.trans_lt hlt

/-- A GRANT that raises its record. -/
theorem grantToRaise_newer {src id amount : Nat} {v : Revision} {r : Record} (h : findTake s src id = some r)
    (ha : findAsk s src = some a) (hv : newer v r.revision = true)
    (hs : s.control.station.speaks = true) :
    grantToRaise src id id amount v s =
      let m := withRecord { r with amount := amount, revision := v } (withoutAsk a s)
      { m with engine := { m.engine with changePending := decide (r.amount ≠ amount) || s.engine.changePending } } := by
  obtain ⟨hf, -, hsup, hid⟩ := findRecord_of_findTake h
  simp only [grantToRaise, h, hv, ↓reduceIte, removeAsk_of_found ha]
  exact putRecord_of_visible (old := r) (by rw [hsup, hid]; exact hf)
    (fun e => ne_of_newer hv (Prod.mk.inj (Prod.mk.inj e).2).1) (fun h => h) hs

/-- A GRANT that is not newer than the record it names. -/
theorem grantToRaise_stale {src id amount : Nat} {v : Revision} {r : Record} (h : findTake s src id = some r)
    (ha : findAsk s src = some a) (hv : newer v r.revision = false) :
    grantToRaise src id id amount v s = lateGrant src id v (skipping src (withoutAsk a s)) := by
  simp only [grantToRaise, h, hv, ↓reduceIte, failAsk_of_found ha]
  rfl

/-- A GRANT of another contract than the one the raise names. -/
theorem grantToRaise_other {src i id amount : Nat} {v : Revision} (hi : id ≠ i) (ha : findAsk s src = some a)
    (hr : normalRoom s = true) :
    grantToRaise src i id amount v s = withFrame src (.release src id) (skipping src (withoutAsk a s)) := by
  simp only [grantToRaise, hi, ↓reduceIte, failAsk_of_found ha]
  exact answer_of_room (s := skipping src (withoutAsk a s)) (normalRoom_withoutAsk hr) _ _

/-- A HOLD that holds its ask. -/
theorem holdConsumed_held {time : Nat} (hb : f.body = .hold rid time) (hm : matchingAsk s f.src rid = some a)
    (hh : a.holds < 3) : holdConsumed f s = { s with
      engine := { s.engine with asks := s.engine.asks.map fun b =>
        if b.supplier = f.src then { b with state := .held (s.now + 125 * time), holds := b.holds + 1 } else b }
      link := (withoutAsk a s).link } := by
  simp only [holdConsumed, hb, hm, maxHolds, hh, ↓reduceIte, updateAsk, releaseFrame, withdraw, withoutAsk, ms]
  cases a.state <;> simp [bne, beq_eq_decide]

/-- The fourth HOLD ends its ask. -/
theorem holdConsumed_ended {time : Nat} (hb : f.body = .hold rid time) (hm : matchingAsk s f.src rid = some a)
    (ha : findAsk s f.src = some a) (hh : 3 ≤ a.holds) : holdConsumed f s = skipping f.src (withoutAsk a s) := by
  simp only [holdConsumed, hb, hm, maxHolds, Nat.not_lt.mpr hh, ↓reduceIte]
  exact failAsk_of_found ha

end Matched

/-- Settles O47: the first three HOLDs hold their ask, the fourth ends it. -/
theorem Settled.holdConsumed : Obligations.HoldConsumed := by
  intro dt rid time f rest s p hc hb
  rw [exec_consumeHold dt hc hb]
  refine ⟨fun a hm hf hh => ?_, fun a hm hf hh => ?_, fun hm => ?_⟩
  · have hm' : matchingAsk (consumed rest p) f.src rid = some a := by simpa [p] using hm
    rw [holdConsumed_held hb hm' hh]
    simp [p, consumed]
  · have hm' : matchingAsk (consumed rest p) f.src rid = some a := by simpa [p] using hm
    have hf' : findAsk (consumed rest p) f.src = some a := by simpa [p] using hf
    rw [holdConsumed_ended hb hm' hf' hh]
  · rw [holdConsumed_of_unmatched hb (by simpa using hm)]

/-- Settles O46: a GRANT that matches its ask, by what the ask was for; a late one, by the record that stands. -/
theorem Settled.grantConsumed : Obligations.GrantConsumed := by
  intro dt rid id amount v f rest s p hc hb
  have hroom : normalRoom (consumed rest p) = true := room_of_consuming hc dt
  have hspeaks : (consumed rest p).control.station.speaks = true := speaks_of_consuming hc dt
  rw [exec_consumeGrant dt hc hb]
  have hm (x : Option Ask) : matchingAsk s f.src rid = x ↔ matchingAsk (consumed rest p) f.src rid = x := by simp [p]
  have ha : findAsk s f.src = findAsk (consumed rest p) f.src := by simp [p]
  have ht : findTake s f.src id = findTake (consumed rest p) f.src id := by simp [p]
  have hcp : s.engine.changePending = (consumed rest p).engine.changePending := by simp [p]
  simp only [hm, ha, ht, hcp]
  generalize consumed rest p = c at *
  refine ⟨fun a hm hf => ⟨fun hn => ?_, fun r hn hr hv => ?_, fun r hn hr hv => ?_, fun i hn hi => ?_⟩,
    fun hm hr => ?_, fun r hm hr hact => ?_, fun r hm hr hact => ?_⟩
  · rw [grantConsumed_new hb hm hf hn hspeaks]
  · rw [grantConsumed_raise hb hm hn, grantToRaise_newer hr hf hv hspeaks]
  · rw [grantConsumed_raise hb hm hn, grantToRaise_stale hr hf hv]
  · rw [grantConsumed_raise hb hm hn, grantToRaise_other hi hf hroom]
  · rw [grantConsumed_of_unmatched hb hm, lateGrant_unknown hr hroom]
  · rw [grantConsumed_of_unmatched hb hm, lateGrant_active hr hact hroom hspeaks]
  · rw [grantConsumed_of_unmatched hb hm, lateGrant_closing hr hact]

/-! ### A taker's reductions -/

section Reduction

variable {taker id a : Nat} {v : Revision} {s : State} {r : Record}

theorem reduction_unknown (h : namedSupply taker id s = none) (ha : 0 < a) (hr : normalRoom s = true) :
    reduction taker id a v s = withFrame taker (.release (ownAddress s) id) s := by
  simp only [reduction, h, Nat.ne_of_gt ha, ↓reduceIte]
  exact answer_of_room hr _ _

theorem reduction_unknown_zero (h : namedSupply taker id s = none) : reduction taker id 0 v s = s := by
  simp [reduction, h]

theorem reduction_closing (h : namedSupply taker id s = some r) (hc : r.isClosing = true) :
    reduction taker id a v s = s := by
  have hst : r.state = .closing := by simpa [Record.isClosing] using hc
  simp [reduction, h, hst]

/-- The record of a contract that is neither closing nor in recall. -/
theorem reduction_settled (h : namedSupply taker id s = some r) (hc : r.isClosing = false) (hr : r.isRecalling = false) :
    reduction taker id a v s = if newerOrEqual v r.revision = true ∧ a < r.amount then
        if a = 0 then dropRecord r.supplier r.id s
        else putRecord { r with amount := a, revision := v, state := .active } s
      else s := by
  simp only [reduction, h]
  cases hst : r.state <;> simp_all [Record.isClosing, Record.isRecalling]

/-- A contract in recall. -/
theorem reduction_recalling {target deadline : Nat} {tv : Revision} (h : namedSupply taker id s = some r)
    (hst : r.state = .recalling target tv deadline) :
    reduction taker id a v s
      = if (newerOrEqual v tv || (v == r.revision && decide (a ≤ target))) = true then
          if min a r.amount = 0 then dropRecord r.supplier r.id s
          else putRecord { r with
            amount := min a r.amount, revision := newest v tv, state := .active
            owed := if r.owed = some .recall then none else r.owed } s
        else s := by
  have ho : dropOwedRecall r.owed = if r.owed = some .recall then none else r.owed := by
    rcases r.owed with _ | (_ | _ | _ | _) <;> rfl
  simp only [reduction, h, hst, resolves, resolveRecall, ho]

end Reduction

/-- Settles O49: a TRIM and a YIELD are the same reduction. -/
theorem reductionConsumed : Obligations.ReductionConsumed := by
  intro dt id a v i f rest s p gives c hc hi
  have hroom : normalRoom c = true := room_of_consuming hc dt
  have hspeaks : c.control.station.speaks = true := speaks_of_consuming hc dt
  have hexec : exec i s = .next (settle false p (reduction f.src id a v c)) := by
    obtain ⟨rfl, hb⟩ | ⟨rfl, hb⟩ := hi
    · rw [exec_consuming (i := .consumeTrim dt) hc rfl (by rw [hb]; rfl) (by decide), trimConsumed, hb]
    · rw [exec_consuming (i := .consumeYield dt) hc rfl (by rw [hb]; rfl) (by decide), yieldConsumed, hb]
  have gives_of {m : State} (h : reduction f.src id a v c = m) : gives m := by rw [← h]; exact hexec
  have hn : namedSupply f.src id s = namedSupply f.src id c := by simp [c, p]
  have hown : ownAddress s = ownAddress c := by simp [c, p]
  have hcp : s.engine.changePending = c.engine.changePending := by simp [c, p]
  rw [hn, hown, hcp]
  clear_value c gives
  refine ⟨fun h ha => ?_, fun h ha => ?_, fun r h hcl => ?_, fun r h hcl hrec => ⟨fun hv h0 ha => ?_, fun hv h0 ha => ?_,
    fun hno => ?_⟩, fun r target tv deadline h hst => ⟨fun hno => ?_, fun hres h0 => ?_, fun hres h0 ha => ?_,
    fun hres h0 ha => ?_⟩⟩
  · exact gives_of (ha ▸ reduction_unknown_zero h)
  · exact gives_of (reduction_unknown h ha hroom)
  · exact gives_of (reduction_closing h hcl)
  · refine gives_of ((reduction_settled h hcl hrec).trans ?_)
    rw [if_pos ⟨hv, ha⟩, if_neg (Nat.ne_of_gt h0)]
    exact putRecord_of_found (findRecord_of_namedSupply h).1 (fun e => Nat.ne_of_gt ha (Prod.mk.inj e).1)
      (.inl (Nat.ne_of_gt ha)) hspeaks
  · refine gives_of ((reduction_settled h hcl hrec).trans ?_)
    rw [if_pos ⟨hv, h0 ▸ ha⟩, if_pos h0]
    exact dropRecord_of_found (findRecord_of_namedSupply h).1 hspeaks
  · refine gives_of ((reduction_settled h hcl hrec).trans (if_neg ?_))
    rintro ⟨hv, ha⟩
    rcases hno with hno | hno
    · simp [hno] at hv
    · omega
  · exact gives_of ((reduction_recalling h hst).trans (if_neg (by rw [hno]; decide)))
  · refine gives_of ((reduction_recalling h hst).trans ?_)
    rw [if_pos hres, if_pos h0]
    exact dropRecord_of_found (findRecord_of_namedSupply h).1 hspeaks
  · refine gives_of ((reduction_recalling h hst).trans ?_)
    rw [if_pos hres, Nat.min_eq_left ha.le, if_neg (Nat.ne_of_gt h0)]
    exact putRecord_of_found (findRecord_of_namedSupply h).1 (fun e => Nat.ne_of_gt ha (Prod.mk.inj e).1)
      (.inl (Nat.ne_of_gt ha)) hspeaks
  · refine gives_of ((reduction_recalling h hst).trans ?_)
    rw [if_pos hres, Nat.min_eq_right ha, if_neg (Nat.ne_of_gt h0)]
    refine (putRecord_of_visible (new := { r with
        revision := newest v tv, state := .active
        owed := if r.owed = some .recall then none else r.owed }) (findRecord_of_namedSupply h).1 ?_ ?_ hspeaks).trans ?_
    · simp [Record.visible, hst, RecordState.code]
    · simp [Record.isClosing]
    · simp

/-! ### Releases -/

section Release

variable {f : Frame} {s : State} {supplier id : Nat} {r : Record}

/-- A RELEASE from the supplier of a taker-side contract. -/
theorem releaseConsumed_take (hb : f.body = .release supplier id) (hsup : supplier = f.src)
    (h : findTake s supplier id = some r) (hs : s.control.station.speaks = true) :
    releaseConsumed f s = removeRaise r (withoutRecord supplier id s) := by
  simp only [releaseConsumed, hb, hsup, ↓reduceIte]
  rw [← hsup, h, dropRecord_of_found (findRecord_of_findTake h).1 hs]

/-- A RELEASE from the taker of a supplier-side contract. -/
theorem releaseConsumed_supply (hb : f.body = .release supplier id) (hown : supplier = ownAddress s)
    (hne : f.src ≠ ownAddress s) (h : namedSupply f.src id s = some r) (hs : s.control.station.speaks = true) :
    releaseConsumed f s = withoutRecord supplier id s := by
  obtain ⟨hf, -, hsup, hid⟩ := findRecord_of_namedSupply h
  simp only [releaseConsumed, hb, hown, hne.symm, ↓reduceIte, h]
  exact dropRecord_of_found (by rwa [hsup, hid] at hf) hs

/-- The record and the raise that names it end together. -/
theorem removeRaise_withoutRecord_of_raise {a : Ask} (h : findTake s supplier id = some r) (hr : raiseNames s r = true)
    (ha : findAsk s supplier = some a) :
    removeRaise r (withoutRecord supplier id s) = withoutAsk a (withoutRecord supplier id s) := by
  have hr' : raiseNames (withoutRecord supplier id s) r = true := hr
  rw [removeRaise, if_pos hr', (findRecord_of_findTake h).2.2.1]
  exact removeAsk_of_found ha

theorem removeRaise_of_not {t : State} (hr : raiseNames t r = false) : removeRaise r t = t := by
  simp [removeRaise, hr]

/-- A RELEASE of no contract held with its sender. -/
theorem releaseConsumed_other (hb : f.body = .release supplier id)
    (h1 : supplier = f.src → findTake s supplier id = none)
    (h2 : supplier ≠ f.src → supplier = ownAddress s → namedSupply f.src id s = none) : releaseConsumed f s = s := by
  simp only [releaseConsumed, hb]
  split
  · rename_i h
    rw [h1 h]
  · rename_i h
    split
    · rename_i ho
      rw [h2 h ho]
    · rfl

end Release

/-- Settles O51: the RELEASE of a contract held with its sender, and every other. -/
theorem Settled.releaseConsumed : Obligations.ReleaseConsumed := by
  intro dt supplier id f rest s p c hc hb hsrc
  have hspeaks : c.control.station.speaks = true := speaks_of_consuming hc dt
  have hown : ownAddress s = ownAddress c := by simp [c, p]
  have hn : namedSupply f.src id s = namedSupply f.src id c := by simp [c, p]
  have ht : findTake s supplier id = findTake c supplier id := by simp [c, p]
  have hask : findAsk s supplier = findAsk c supplier := by simp [c, p]
  have hraise (r : Record) : raiseNames s r = raiseNames c r := by simp [c, p]
  have hexec : exec (.consumeRelease dt) s = .next (settle true p (Machine.releaseConsumed f c)) :=
    exec_consuming hc rfl (by rw [hb]; rfl) (by decide)
  rw [hexec, hown, hn, ht, hask]
  simp only [hraise]
  rw [hown] at hsrc
  clear_value c
  refine ⟨fun r ho h => ?_, fun ho h => ?_, fun r ho h => ⟨fun hr => ?_, fun a hr ha => ?_⟩, fun ho h => ?_,
    fun h1 h2 => ?_⟩
  · rw [releaseConsumed_supply hb ho hsrc h hspeaks]
  · rw [releaseConsumed_other hb (fun e => absurd (e ▸ ho) hsrc) fun _ _ => h]
  · rw [releaseConsumed_take hb ho h hspeaks, removeRaise_of_not (t := withoutRecord supplier id c) hr]
  · rw [releaseConsumed_take hb ho h hspeaks, removeRaise_withoutRecord_of_raise h hr ha]
  · rw [releaseConsumed_other hb (fun _ => h) fun e => absurd ho e]
  · rw [releaseConsumed_other hb (fun e => absurd e h1) fun _ e => absurd e h2]

/-! ### Alerts -/

/-- The ALERT told to the host. -/
def toldAlert (s : State) : State := { s with host := { s.host with flags := s.host.flags ||| Event.alert.bit } }

theorem alertEffect_of_not_shedding {s : State} (h : s.engine.role ≠ .taker ∨ (cfg s).sheddable = false) :
    alertEffect s = toldAlert s := by
  have hn : ¬ ((toldAlert s).engine.role = .taker ∧ (cfg (toldAlert s)).sheddable = true) := by
    rintro ⟨h1, h2⟩
    rcases h with h | h
    · exact h h1
    · have : (cfg s).sheddable = true := h2
      simp [this] at h
  exact if_neg hn

theorem alertEffect_of_shedding {s : State} (hd : Distinct s.engine.table) (ha : DistinctAsks s.engine.asks)
    (hs : s.control.station.speaks = true) (h1 : s.engine.role = .taker) (h2 : (cfg s).sheddable = true) :
    alertEffect s =
      let m := withoutAsks (withTakesClosed (toldAlert s))
      { m with engine := { m.engine with suspendEnd := some (m.now + 125 * (cfg s).alertHoldoff) } } := by
  have hshed : removeAllAsks (closeAllTake (toldAlert s)) = withoutAsks (withTakesClosed (toldAlert s)) :=
    removeAllAsks_closeAllTake hd ha hs
  have hcfg : cfg (withoutAsks (withTakesClosed (toldAlert s))) = cfg s := by
    have : (withoutAsks (withTakesClosed (toldAlert s))).control = s.control := by
      simp only [withoutAsks, withTakesClosed, withRecords]
      split <;> rfl
    rw [cfg, this, cfg]
  have e : alertEffect s = (fun u : State =>
      { u with engine := { u.engine with suspendEnd := some (u.now + ms (cfg u).alertHoldoff) } })
      (removeAllAsks (closeAllTake (toldAlert s))) := if_pos ⟨h1, h2⟩
  rw [e, hshed]
  simp only [hcfg, ms]

/-- Settles O53: the head of the inbound queue is an ALERT, whatever its source. -/
theorem alertConsumed : Obligations.AlertConsumed := by
  intro dt rail f rest s p c told hto hr hs hroom hin hb
  have hexec : exec (.consumeAlert dt) s = .next (settle true p (alertEffect c)) := by
    rw [exec_happens (i := .consumeAlert dt) rfl hr]
    have := consume_of_accepted (s := p) (by simpa [p] using hs) (by simpa [p] using hroom) (by simpa [p] using hin)
      (by simp [accepted, hb]) fun _ => alertEffect
    rw [hb] at this
    exact congrArg _ (congrArg _ this)
  obtain ⟨hd, ha⟩ := hto.distinct
  have hdc : Distinct c.engine.table := by simpa [c, p] using hd
  have hac : DistinctAsks c.engine.asks := by simpa [c, p] using ha
  have hsc : c.control.station.speaks = true := by simpa [c, p] using hs
  have hcfg : cfg s = cfg c := by simp [c, p]
  have hrole : s.engine.role = c.engine.role := by simp [c, p]
  have htold : told = toldAlert c := by simp [told, toldAlert, c, p, consumed]
  have hnow (m : State) (h : m = withoutAsks (withTakesClosed (toldAlert c))) : m.now = p.now := by
    rw [h]
    simp only [withoutAsks, withTakesClosed, withRecords]
    split <;> rfl
  rw [hexec, hcfg, hrole, htold]
  refine ⟨fun h => ?_, fun h1 h2 => ?_⟩
  · rw [alertEffect_of_not_shedding h]
  · rw [alertEffect_of_shedding hdc hac hsc h1 h2]
    simp only [hnow _ rfl]

end Sys2Proof.Machine
end

section
/-! SUPPORT. Records changed in their place in the table: what one replacement, removal or notice comes to where the keys
are distinct; and the answer to a RECALL. -/

namespace Sys2Proof.Machine

/-! ### A record in its place -/

/-- The state with another Contract Table; `c` says that a change is pending by it, `f` that CONTRACTS_CHANGED is set. -/
def amended (l : List Record) (c f : Bool) (s : State) : State :=
  { s with
    engine := { s.engine with table := l, changePending := c || s.engine.changePending }
    host := { s.host with flags := if f then s.host.flags ||| Event.contractsChanged.bit else s.host.flags } }

theorem amended_amended (l l' : List Record) (c c' f f' : Bool) (s : State) :
    amended l' c' f' (amended l c f s) = amended l' (c' || c) (f' || f) s := by
  cases f <;> cases f' <;> simp [amended, BitVec.or_assoc, Bool.or_assoc]

theorem amended_same (s : State) : amended s.engine.table false false s = s := rfl

/-- A change of a record that makes a DECLARE change pending (R32). -/
def Record.amends (old new : Record) : Bool :=
  decide (old.amount ≠ new.amount ∨ new.isClosing = true ∧ old.isClosing = false)

section Place

variable {before after : List Record} {r n : Record} {s : State}

/-- Replacing a record in its place. -/
theorem putRecord_at (ht : s.engine.table = before ++ r :: after) (hd : Distinct (before ++ r :: after))
    (hn : n.supplier = r.supplier ∧ n.id = r.id) (hs : s.control.station.speaks = true) :
    putRecord n s = amended (before ++ n :: after) (r.amends n) (decide (r.visible ≠ n.visible)) s := by
  have hf := hd.find
  rw [← ht] at hf
  unfold putRecord
  rw [hn.1, hn.2, hf]
  simp only [ht, hd.map_key]
  by_cases hv : r.visible = n.visible <;>
    by_cases hc : r.amount ≠ n.amount ∨ n.isClosing = true ∧ r.isClosing = false <;>
    simp [hv, hc, amended, Record.amends, noteChange, noteContracts, setEvent, hs]

/-- Removing a record from its place. -/
theorem dropRecord_at (ht : s.engine.table = before ++ r :: after) (hd : Distinct (before ++ r :: after))
    (hs : s.control.station.speaks = true) :
    dropRecord r.supplier r.id s = amended (before ++ after) true true s := by
  have hany : s.engine.table.any (Record.hasKey r.supplier r.id) = true := by
    rw [ht, List.any_eq_true]
    exact ⟨r, by simp, by simp [Record.hasKey]⟩
  rw [dropRecord, dropRecords, if_pos hany, ht, hd.filter_key]
  simp [noteChange, noteContracts, setEvent, hs, amended]

/-- A record held in the table stands in a place of it. -/
theorem Distinct.map_replace (h : Distinct (before ++ r :: after)) (hn : n.supplier = r.supplier ∧ n.id = r.id) :
    ((before ++ r :: after).map fun q => if q.supplier = n.supplier ∧ q.id = n.id then n else q) = before ++ n :: after := by
  rw [hn.1, hn.2, ← h.map_key (n := n)]
  simp only [Record.hasKey, Bool.and_eq_true, beq_iff_eq]

theorem Distinct.filter_replace (h : Distinct (before ++ r :: after)) :
    (before ++ r :: after).filter (fun q => ¬ (q.supplier = r.supplier ∧ q.id = r.id)) = before ++ after := by
  rw [← h.filter_key]
  congr 1
  funext q
  simp [Record.hasKey, beq_eq_decide]

/-! ### One notice -/

theorem foldl_placeNotice_none {l : List Record} (h : ∀ q ∈ l, q.owed = none) : l.foldl placeNotice s = s := by
  induction l with
  | nil => rfl
  | cons q l ih =>
    rw [List.foldl_cons, placeNotice_of_none (h q List.mem_cons_self)]
    exact ih fun x hx => h x (List.mem_cons_of_mem _ hx)

/-- Placing the notices of a table in which one record owes one. -/
theorem placeNotices_one (ht : s.engine.table = before ++ r :: after) (hb : ∀ q ∈ before, q.owed = none)
    (ha : ∀ q ∈ after, q.owed = none) : placeNotices s = placeNotice s r := by
  rw [placeNotices, ht, List.foldl_append, List.foldl_cons, foldl_placeNotice_none hb, foldl_placeNotice_none ha]

/-- The notice of a record that is not closing: its slot is emptied. -/
theorem placeNotice_open {k : Notice} (ht : s.engine.table = before ++ r :: after) (hd : Distinct (before ++ r :: after))
    (hk : r.owed = some k) (hr : normalRoom s = true) (hc : r.isClosing = false) (hs : s.control.station.speaks = true) :
    placeNotice s r = { amended (before ++ { r with owed := none } :: after) false false s with
      link := { s.link with normal := s.link.normal ++ [noticeFrame r k] } } := by
  simp only [placeNotice, hk, hr, enqueue, ↓reduceIte, hc, Bool.false_eq_true]
  have e := putRecord_at (n := { r with owed := none })
    (s := { s with link := { s.link with normal := s.link.normal ++ [noticeFrame r k] } }) ht hd ⟨rfl, rfl⟩ hs
  have hamends : r.amends { r with owed := none } = false := by simp [Record.amends, Record.isClosing]
  rw [e, hamends]
  simp [amended, Record.visible]

/-- The notice of a closing record goes with it. -/
theorem placeNotice_closing {k : Notice} (ht : s.engine.table = before ++ r :: after)
    (hd : Distinct (before ++ r :: after)) (hk : r.owed = some k) (hr : normalRoom s = true) (hc : r.isClosing = true)
    (hs : s.control.station.speaks = true) :
    placeNotice s r = { amended (before ++ after) true true s with
      link := { s.link with normal := s.link.normal ++ [noticeFrame r k] } } := by
  simp only [placeNotice, hk, hr, enqueue, ↓reduceIte, hc]
  exact dropRecord_at (s := { s with link := { s.link with normal := s.link.normal ++ [noticeFrame r k] } }) ht hd hs

end Place

/-! ### The answer to a RECALL -/

section Recall

variable {before after : List Record} {r : Record} {s : State} {target : Nat} {v : Revision}

/-- The YIELD of a record that stays. -/
theorem yield_open {n : Record} (ht : s.engine.table = before ++ r :: after) (hd : Distinct (before ++ r :: after))
    (hb : ∀ q ∈ before, q.owed = none) (ha : ∀ q ∈ after, q.owed = none)
    (hn : n.supplier = r.supplier ∧ n.id = r.id) (ho : n.owed = none) (hcl : n.isClosing = false)
    (hr : normalRoom s = true) (hs : s.control.station.speaks = true) :
    placeNotices (putRecord { n with owed := some .yield } s)
      = withFrame n.counterpart (.yield n.id n.amount n.revision)
          (amended (before ++ n :: after) (decide (r.amount ≠ n.amount)) (decide (r.visible ≠ n.visible)) s) := by
  have hamends : r.amends { n with owed := some .yield } = decide (r.amount ≠ n.amount) := by
    have : Record.isClosing { n with owed := some .yield } = n.isClosing := rfl
    simp [Record.amends, this, hcl]
  have hd' : Distinct (before ++ { n with owed := some .yield } :: after) := hd.replace hn
  have hid : ({ n with owed := none } : Record) = n := by rw [← ho]
  have e := putRecord_at (n := { n with owed := some .yield }) ht hd hn hs
  have e' := placeNotice_open (r := { n with owed := some .yield }) (k := .yield)
    (s := amended (before ++ { n with owed := some .yield } :: after) (decide (r.amount ≠ n.amount))
      (decide (r.visible ≠ n.visible)) s) rfl hd' rfl hr hcl hs
  have hvis : ({ n with owed := some .yield } : Record).visible = n.visible := rfl
  rw [e, hamends, hvis, placeNotices_one (r := { n with owed := some .yield }) rfl hb ha, e', amended_amended]
  have hf : noticeFrame { n with owed := some .yield } .yield = ⟨n.counterpart, .fixed (.yield n.id n.amount n.revision), 0⟩ := by
    have : Record.isClosing { n with owed := some .yield } = n.isClosing := rfl
    simp [noticeFrame, this, hcl]
  rw [hf]
  simp only [hid, Bool.false_or]
  rfl

/-- The YIELD of a record that closes with it. -/
theorem yield_closing (hd : Distinct (before ++ r :: after))
    (hb : ∀ q ∈ before, q.owed = none) (ha : ∀ q ∈ after, q.owed = none)
    (hr : normalRoom s = true) (hs : s.control.station.speaks = true) :
    placeNotices (amended (before ++ { r with revision := v, state := .closing, owed := some .yield } :: after) true true s)
      = withFrame r.counterpart (.yield r.id 0 v) (amended (before ++ after) true true s) := by
  have hd' : Distinct (before ++ { r with revision := v, state := .closing, owed := some .yield } :: after) :=
    hd.replace ⟨rfl, rfl⟩
  rw [placeNotices_one (r := { r with revision := v, state := .closing, owed := some .yield }) rfl hb ha]
  refine (placeNotice_closing (s := amended
    (before ++ { r with revision := v, state := .closing, owed := some .yield } :: after) true true s)
    rfl hd' rfl hr rfl hs).trans ?_
  rw [amended_amended]
  rfl

/-- Withdrawing an ask leaves records and marks to be changed as before. -/
theorem withoutAsk_amended (a : Ask) (l : List Record) (c f : Bool) (s : State) :
    withoutAsk a (amended l c f s) = amended l c f (withoutAsk a s) := by
  cases a.state <;> rfl

theorem withRecord_at (ht : s.engine.table = before ++ r :: after) (hd : Distinct (before ++ r :: after)) {n : Record}
    (hn : n.supplier = r.supplier ∧ n.id = r.id) : withRecord n s = amended (before ++ n :: after) true true s := by
  rw [withRecord, ht, hd.map_replace hn]
  rfl

theorem withoutRecord_at (ht : s.engine.table = before ++ r :: after) (hd : Distinct (before ++ r :: after)) :
    withoutRecord r.supplier r.id s = amended (before ++ after) true true s := by
  rw [withoutRecord, ht, hd.filter_replace]
  rfl

end Recall

section Active

variable {before after : List Record} {r : Record} {s : State} {target : Nat} {v : Revision}

/-- An ACTIVE contract is recalled to a target above 0, or by a stale RECALL: the record stays. -/
theorem recallActive_open (hact : r.state = .active) (ho : r.owed = none) (ht : s.engine.table = before ++ r :: after)
    (hd : Distinct (before ++ r :: after)) (hb : ∀ q ∈ before, q.owed = none) (ha : ∀ q ∈ after, q.owed = none)
    (hr : normalRoom s = true) (hs : s.control.station.speaks = true) :
    (newerOrEqual v r.revision = true → target ≠ 0 → recallActive target v r s
      = withFrame r.counterpart (.yield r.id (min r.amount target) v)
          (amended (before ++ { r with amount := min r.amount target, revision := v } :: after)
            (decide (r.amount ≠ min r.amount target))
            (decide (r.visible ≠ (min r.amount target, v, r.state.code))) s))
    ∧ (newerOrEqual v r.revision = false → recallActive target v r s = withFrame r.counterpart (.yield r.id r.amount r.revision) s) := by
  have hcl : r.isClosing = false := by simp [Record.isClosing, hact]
  constructor
  · intro hv h0
    rw [recallActive, if_pos hv, if_neg h0]
    exact yield_open (n := { r with amount := min r.amount target, revision := v }) ht hd hb ha ⟨rfl, rfl⟩ ho hcl hr hs
  · intro hv
    rw [recallActive, if_neg (by simp [hv])]
    have e := yield_open (n := r) ht hd hb ha ⟨rfl, rfl⟩ ho hcl hr hs
    rw [e, ← ht]
    simp [amended]

/-- An ACTIVE contract is recalled to 0: the record goes with its YIELD, and the raise that names it with it. -/
theorem recallActive_zero (hact : r.state = .active) (ht : s.engine.table = before ++ r :: after)
    (hd : Distinct (before ++ r :: after)) (hb : ∀ q ∈ before, q.owed = none) (ha : ∀ q ∈ after, q.owed = none)
    (hv : newerOrEqual v r.revision = true) (hr : normalRoom s = true) (hs : s.control.station.speaks = true) :
    (raiseNames s r = false → recallActive 0 v r s
      = withFrame r.counterpart (.yield r.id 0 v) (withoutRecord r.supplier r.id s))
    ∧ (∀ a, raiseNames s r = true → findAsk s r.supplier = some a → recallActive 0 v r s
      = withFrame r.counterpart (.yield r.id 0 v) (withoutAsk a (withoutRecord r.supplier r.id s))) := by
  have e : putRecord { r with revision := v, state := .closing, owed := some .yield } s
      = amended (before ++ { r with revision := v, state := .closing, owed := some .yield } :: after) true true s := by
    rw [putRecord_at (n := { r with revision := v, state := .closing, owed := some .yield }) ht hd ⟨rfl, rfl⟩ hs]
    simp [Record.amends, Record.isClosing, Record.visible, hact, RecordState.code]
  rw [withoutRecord_at ht hd]
  constructor
  · intro hn
    rw [recallActive, if_pos hv, if_pos rfl, closeTake, removeRaise_of_not, e]
    · exact yield_closing hd hb ha hr hs
    · rw [e]; exact hn
  · intro a hn hf
    have hremove : removeRaise { r with revision := v }
        (amended (before ++ { r with revision := v, state := .closing, owed := some .yield } :: after) true true s)
        = amended (before ++ { r with revision := v, state := .closing, owed := some .yield } :: after) true true
          (withoutAsk a s) := by
      rw [removeRaise, if_pos (by exact hn), ← withoutAsk_amended]
      exact removeAsk_of_found hf
    rw [recallActive, if_pos hv, if_pos rfl, closeTake, e, hremove, withoutAsk_amended]
    exact yield_closing (s := withoutAsk a s) hd hb ha (normalRoom_withoutAsk hr) hs

end Active

/-- Settles O50: in sound tables the YIELD is the one notice owed, and it has a place. -/
theorem Settled.recallConsumed : Obligations.RecallConsumed := by
  intro dt id target v f rest s p hc hb
  have hexec : exec (.consumeRecall dt) s = .next (settle true p (Machine.recallConsumed f (consumed rest p))) :=
    exec_consuming hc rfl (by rw [hb]; rfl) (by decide)
  have hroom : normalRoom (consumed rest p) = true := room_of_consuming hc dt
  have hspeaks : (consumed rest p).control.station.speaks = true := speaks_of_consuming hc dt
  have ht : findTake s f.src id = findTake (consumed rest p) f.src id := by simp [p]
  rw [hexec, ht]
  refine ⟨fun h => ?_, fun r h hact => ?_, fun r h hact hsound => ?_⟩
  · rw [Machine.recallConsumed, hb]
    simp only [h]
    rw [answer_of_room hroom]
  · rw [Machine.recallConsumed, hb]
    simp [h, Record.isActive, hact]
  · intro c answered
    obtain ⟨hto, -, -, -, -, -, howed⟩ := hsound
    obtain ⟨hd, -⟩ := hto.distinct
    obtain ⟨hfind, hside, hsup, hid⟩ := findRecord_of_findTake h
    have htable : c.engine.table = s.engine.table := by simp [c, p]
    have hmem : r ∈ s.engine.table := htable ▸ List.mem_of_find?_eq_some hfind
    have howed' : ∀ q ∈ s.engine.table, q.owed = none := howed hc.2.2.1
    have hcounter : r.counterpart = f.src := by
      have := hto.2.2.2.1 r hmem
      rw [hside] at this
      exact this.symm.trans hsup
    obtain ⟨before, after, hsplit⟩ := List.append_of_mem hmem
    rw [hsplit] at hd howed' htable
    have hbefore : ∀ q ∈ before, q.owed = none := fun q hq => howed' q (by simp [hq])
    have hafter : ∀ q ∈ after, q.owed = none := fun q hq => howed' q (by simp [hq])
    have hact' : r.isActive = true := by simp [Record.isActive, hact]
    have hstep : Machine.recallConsumed f c = recallActive target v r c := by
      rw [Machine.recallConsumed, hb]
      simp only [h, hact', ↓reduceIte, c]
    have answered_of {a : Nat} {w : Revision} {m : State}
        (e : recallActive target v r c = withFrame r.counterpart (.yield r.id a w) m) : answered a w m := by
      show (.next (settle true p (Machine.recallConsumed f c)) : Answer) = _
      rw [hstep, e, hcounter, hid]
    have hcp : s.engine.changePending = c.engine.changePending := by simp [c, p]
    have hflags : s.host.flags = c.host.flags := by simp [c, p, consumed]
    have hraise : raiseNames s r = raiseNames c r := by simp [c, p]
    have hask : findAsk s f.src = findAsk c f.src := by simp [c, p]
    have hopen := recallActive_open (target := target) (v := v) hact (howed' r (by simp)) htable hd hbefore hafter
      hroom hspeaks
    have hzero := recallActive_zero (v := v) hact htable hd hbefore hafter (hr := hroom) (hs := hspeaks)
    rw [hcp, hflags, hraise, hask]
    rw [hsup, hid] at hzero
    clear_value c answered
    refine ⟨fun hv h0 => ?_, fun hv h0 hn => ?_, fun a hv h0 hn hf => ?_, fun hv => ?_⟩
    · refine answered_of ((hopen.1 hv h0).trans ?_)
      rw [withRecord_at htable hd (n := { r with amount := min r.amount target, revision := v }) ⟨rfl, rfl⟩]
      have hvis : r.visible = (min r.amount target, v, r.state.code) ↔ r.amount = min r.amount target ∧ r.revision = v := by
        simp [Record.visible]
      generalize min r.amount target = a at *
      by_cases hsame : r.amount = a ∧ r.revision = v
      · have hd : decide (r.visible ≠ (a, v, r.state.code)) = false := by simpa using hvis.mpr hsame
        rw [hd, if_pos hsame]
        rfl
      · have hd : decide (r.visible ≠ (a, v, r.state.code)) = true := by simpa using fun e => hsame (hvis.mp e)
        rw [hd, if_neg hsame]
        rfl
    · subst h0
      exact answered_of (hid ▸ (hzero hv).1 hn)
    · subst h0
      exact answered_of (hid ▸ (hzero hv).2 a hn hf)
    · exact answered_of (hopen.2 hv)

end Sys2Proof.Machine
end

section
/-! SUPPORT. A state in order that the reconciliation of a DECLARE does not treat as it is said to: a taker-side record in
recall, which no law of the tables' order excludes, is removed without the raise that names it. -/

namespace Sys2Proof.Machine

/-- Role IDLE and no ask. -/
def IdleUnasked (t : State) : Prop := t.engine.role = .idle ∧ t.engine.asks = []

theorem checkDrain_of_idle {s : State} (h : s.engine.role = .idle) : checkDrain s = s := by
  simp only [checkDrain, h]

/-- The end of a happening starts no ask in role IDLE. -/
theorem idleUnasked_ends : EndsKeep IdleUnasked where
  bargains s t _ hb h := by
    refine ⟨hb.role.trans h.1, ?_⟩
    have := hb.asks
    rw [h.2] at this
    simpa using this
  turn pre s _ h := by
    obtain ⟨_, _, _, e, -⟩ := builderTurn_eq pre s
    rw [e]
    exact h
  drain s _ h := by rw [checkDrain_of_idle h.1]; exact h
  ask p s hm _ h := by
    have : s.engine.role = .taker := by
      simp only [mayAsk, Bool.and_eq_true, decide_eq_true_eq] at hm
      exact hm.1.1.1.1.1.2
    rw [h.1] at this
    cases this
  path s _ h := by
    have e : (movePath s).engine = s.engine := by unfold movePath; dsimp only; split <;> (try split) <;> rfl
    exact ⟨e ▸ h.1, e ▸ h.2⟩
  timer s h := by
    have e : (moveTimer s).engine = s.engine := by unfold moveTimer; split <;> rfl
    exact ⟨e ▸ h.1, e ▸ h.2⟩
  watches _ _ _ _ _ h := h
  flags _ _ _ h := h

/-- The record of contract (2, 1) on the taker's side, in recall to 0 at revision 1. -/
def recalledTake : Record := ⟨2, 1, .take, 2, 80, 0, .recalling 0 1 9000, none, 0⟩

/-- A raise that names it. -/
def raiseOfTwo : Ask := ⟨2, 1, some 1, 10, 4, .asked 9000, 0⟩

/-- The DECLARE of station 2, which lists contract (2, 1) at 0. -/
def listsAtZero : Declare := ⟨2, false, false, false, 140, 50, 300, 300, 0, [⟨0, 1, 0, 1⟩]⟩

/-- Station 2's DECLARE as it waits to be consumed. -/
def declaredByTwo : Frame := ⟨0, 2, 0, .declare listsAtZero⟩

/-- The entry of station 2. -/
def entryOfTwo : Peer := ⟨2, 140, .supplier, false, false, 50, 300, 300, 0, .active, 0, 0, none, false⟩

/-- A joined station in IDLE with that record, the raise and the DECLARE. -/
def lapsingRecall : State :=
  { State.reset with
    control := { State.reset.control with station := .joined, loadStart := none }
    engine := { Engine.initial with table := [recalledTake], asks := [raiseOfTwo] }
    peers := [entryOfTwo]
    link := { Link.initial with inbound := [declaredByTwo] } }

theorem tablesOrdered_lapsingRecall : TablesOrdered lapsingRecall := by
  unfold TablesOrdered PeersOrdered
  decide

/-- What the consumption leaves of it. -/
def lapsedRecall : State := happen true 0 (consume 1 declareConsumed) lapsingRecall

theorem exec_lapsingRecall : exec (.consumeDeclare 0) lapsingRecall = .next lapsedRecall := rfl

theorem asks_lapsedRecall : lapsedRecall.engine.asks = [raiseOfTwo] := by decide

/-- Refutes O52: the record goes with the resolved recall, and the raise that names it stays. -/
theorem not_declareConsumed : ¬ Obligations.DeclareConsumed := by
  intro h
  obtain ⟨m, hm, hframe, -, hasks, -, -, -, -, -, -, -, -, hresolved, -⟩ :=
    h 0 listsAtZero entryOfTwo declaredByTwo [] lapsingRecall tablesOrdered_lapsingRecall rfl rfl rfl rfl rfl rfl rfl
  have hgone : ∀ y ∈ m.engine.table, ¬ (y.supplier = 2 ∧ y.id = 1) :=
    (hresolved recalledTake List.mem_cons_self ⟨0, 1, 0, 1⟩ 0 1 9000 rfl rfl (by decide) (by decide)).2 rfl
  have hnone : m.engine.asks = [] := by
    rw [hasks, List.filter_eq_nil_iff]
    intro a ha hkept
    obtain rfl : a = raiseOfTwo := by simpa [lapsingRecall] using ha
    have hkey := of_decide_eq_true hkept recalledTake List.mem_cons_self rfl rfl rfl
    obtain ⟨y, hy, e⟩ := List.mem_map.mp hkey
    exact hgone y hy ⟨(Prod.mk.inj e).1, (Prod.mk.inj (Prod.mk.inj e).2).1⟩
  have hidle : IdleUnasked m := ⟨by rw [hframe]; rfl, hnone⟩
  have hend : lapsedRecall = settle true (advance 0 lapsingRecall) m := by
    have := exec_lapsingRecall.symm.trans hm
    injection this
  have := (idleUnasked_ends.settle true (advance 0 lapsingRecall) hidle).2
  rw [← hend, asks_lapsedRecall] at this
  cases this

end Sys2Proof.Machine
end

section
/-! SUPPORT. Frames and damage received: what the reception leaves before and after the attempt in whose window it began
fails. -/

namespace Sys2Proof.Machine

/-! ### A reception in its command -/

section Commands

variable {r : Reception} {f : Frame} {s : State}

theorem receiveDeclareEffect_of_valid {d : Declare} (hc : classify r = .valid f) (hb : f.body = .declare d)
    (hh : s.control.station.hears = true) :
    receiveDeclareEffect r s = onReception r (onFrame f (declareReceived f d)) true s := by
  simp only [receiveDeclareEffect, hc, hb, hh, ↓reduceIte]

theorem receiveAlertEffect_of_valid {rail : Nat} (hc : classify r = .valid f) (hb : f.body = .alert rail)
    (hh : s.control.station.hears = true) :
    receiveAlertEffect r s = onReception r (onFrame f (alertReceived f)) true s := by
  simp only [receiveAlertEffect, hc, hb, hh, ↓reduceIte]

theorem receiveDirectedEffect_of_valid (hc : classify r = .valid f) (hb : f.body.isDirected = true)
    (hh : s.control.station.hears = true) :
    receiveDirectedEffect r s = onReception r (onFrame f (deliverDirected f)) true s := by
  simp only [receiveDirectedEffect, hc, hb, hh, Bool.and_self, ↓reduceIte]

/-- An ACK in the window that matches the attempt. -/
def ackEnds (r : Reception) (f : Frame) (s : State) : Bool :=
  inWindow r (receptionEnd r s) && ackMatches f (receptionEnd r s) && f.src != ownAddress s

theorem receiveAckEffect_of_valid (hc : classify r = .valid f) (hb : f.body = .ack) (hh : s.control.station.hears = true) :
    receiveAckEffect r s = onReception r (onFrame f fun u => if ackEnds r f s then ackArrives u else u) (!ackEnds r f s) s := by
  simp only [receiveAckEffect, hc, hb, hh, ↓reduceIte]
  rfl

end Commands

/-! ### Where a reception ends -/

section Ends

variable {r : Reception} {f : Frame} {s : State} {apply : State → State}

/-- A reception outside any attempt ends now. -/
theorem lineIdle_receptionEnd_of_no_attempt (ho : s.link.ackOut = none) (ha : attemptOf s = none) :
    lineIdle (receptionEnd r s) = { s with link := { s.link with idleSince := some s.now } } := by
  simp [lineIdle, receptionEnd, driveEnd, ho, ha]

/-- A reception outside any attempt has its effect alone. -/
theorem onReception_of_no_attempt (ho : s.link.ackOut = none) (ha : attemptOf s = none) (fails : Bool) :
    onReception r apply fails s = apply { s with link := { s.link with idleSince := some s.now } } := by
  have hw : inWindow r ({ s with link := { s.link with idleSince := some s.now } } : State) = false := by
    have : attemptOf ({ s with link := { s.link with idleSince := some s.now } } : State) = none := ha
    simp [inWindow, this]
  simp only [onReception, lineIdle_receptionEnd_of_no_attempt ho ha, hw, Bool.and_false, Bool.false_eq_true, ↓reduceIte]

/-- The state in which a reception that ends during an attempt takes effect. -/
def receivedAt (n : Nat) (s : State) : State := { s with now := n, link := { s.link with idleSince := some n } }

theorem attemptOf_receivedAt (n : Nat) (s : State) : attemptOf (receivedAt n s) = attemptOf s := rfl

variable {c : Current} {t : Nat}

theorem lineIdle_receptionEnd_of_attempt (h : attemptOf s = some (c, t)) (ho : s.link.ackOut = none) :
    lineIdle (receptionEnd r s) = receivedAt (max s.now (c.txEnd t + r.time)) s := by
  rw [receptionEnd_of_attempt r h ho]
  rfl

/-- A reception that ends during an attempt is taken, and then fails it where it began in the window. -/
theorem onReception_of_attempt (h : attemptOf s = some (c, t)) (ho : s.link.ackOut = none) (fails : Bool) :
    let q := receivedAt (max s.now (c.txEnd t + r.time)) s
    onReception r apply fails s = if fails && inWindow r q then attemptFails (apply q) else apply q := by
  simp only [onReception, lineIdle_receptionEnd_of_attempt h ho]

theorem inWindow_receivedAt (h : attemptOf s = some (c, t)) :
    inWindow r (receivedAt (max s.now (c.txEnd t + r.time)) s) = true
      ↔ c.frame.dst ≠ 0 ∧ max s.now (c.txEnd t + r.time) ≤ c.txEnd t + 14 + r.time := by
  rw [inWindow_of_attempt (s := receivedAt _ s) r h]
  simp only [receivedAt, ackWindow]
  omega

/-- A frame from another station, heard at the end of its reception. -/
theorem onFrame_of_other {rest : State → State} (hne : f.src ≠ ownAddress s) :
    onFrame f rest s = rest (hear f.src s) := if_neg hne

/-- Hearing at a time is what the statements call `heard`. -/
theorem hear_receivedAt (n : Nat) : hear f.src (receivedAt n s) = heard f { s with now := n } := by
  simp [hear, updatePeer, heard, receivedAt]

theorem hear_lineIdle : hear f.src { s with link := { s.link with idleSince := some s.now } } = heard f s := by
  simp [hear, updatePeer, heard]

end Ends

/-! ### Delivery -/

section Deliver

variable {f : Frame} {s : State}

theorem deliverBroadcast_of_room (hs : s.control.station.speaks = true) (h : s.link.inbound.length < 8) :
    deliverBroadcast f s = { s with link := { s.link with inbound := s.link.inbound ++ [f] } } := by
  simp [deliverBroadcast, hs, inboundPlaces, h]

theorem deliverBroadcast_of_full (hs : s.control.station.speaks = true) (h : 8 ≤ s.link.inbound.length) :
    deliverBroadcast f s = { s with link := { s.link with counters := { s.link.counters with
      inboundDrops := min 65535 (s.link.counters.inboundDrops + 1) } } } := by
  simp [deliverBroadcast, hs, inboundPlaces, Nat.not_lt.mpr h, bump, counterMax]

theorem deliverBroadcast_of_silent (hs : s.control.station.speaks = false) : deliverBroadcast f s = s := by
  simp [deliverBroadcast, hs]

/-- A broadcast's delivery touches the link alone. -/
theorem deliverBroadcast_eq (f : Frame) (s : State) : ∃ l, deliverBroadcast f s = { s with link := l } := by
  unfold deliverBroadcast
  split
  · split
    · exact ⟨_, rfl⟩
    · exact ⟨_, rfl⟩
  · exact ⟨s.link, rfl⟩

end Deliver

/-- Settles O39: a malformed reception is counted where it ends, and the attempt in whose window it began fails after it. -/
theorem damagedReceptions : Obligations.DamagedReceptions := by
  intro dt r s p counted hr hh ho
  have hhp : p.control.station.hears = true := by simpa [p] using hh
  have hop : p.link.ackOut = none := advance_ackOut_of_none dt s ho
  have hatt : attemptOf p = attemptOf s := by simp [p]
  have hcount : s.link.counters = p.link.counters := by simp [p]
  have hmal (hc : classify r = .malformed) : exec (.malformedReception dt r) s
      = .next (settle false p (onReception r (fun t => { t with link := { t.link with counters :=
        { t.link.counters with crcErrors := bump t.link.counters.crcErrors } } }) true p)) := by
    rw [exec_happens (i := .malformedReception dt r) rfl hr, malformedEffect, if_pos ⟨hc, hhp⟩]
  have hfrag (hc : classify r = .fragment) :
      exec (.fragment dt r) s = .next (settle false p (onReception r (fun t => t) true p)) := by
    rw [exec_happens (i := .fragment dt r) rfl hr, fragmentEffect, if_pos ⟨hc, hhp⟩]
  refine ⟨fun ha hc => ?_, fun ha hc => ?_, fun c start ha hd => ?_⟩
  · rw [hmal hc, onReception_of_no_attempt hop (hatt.trans ha)]
    simp only [counted, hcount]
    rfl
  · rw [hfrag hc, onReception_of_no_attempt hop (hatt.trans ha)]
  · intro e he
    have ha' : attemptOf p = some (c, start) := hatt.trans (attemptOf_of_attempting ha)
    have hw := (inWindow_receivedAt (r := r) ha').mpr ⟨hd, he⟩
    constructor
    · intro hc
      rw [hmal hc, onReception_of_attempt ha' hop, hw]
      simp only [Bool.and_self, ↓reduceIte, counted, hcount]
      rw [attemptFails_eq (c := c) (t := start) (by exact ha')]
      rfl
    · intro hc
      rw [hfrag hc, onReception_of_attempt ha' hop, hw]
      simp only [Bool.and_self, ↓reduceIte]
      rw [attemptFails_eq (c := c) (t := start) (by exact ha')]
      rfl

/-- An ALERT sets the last-alert time and is delivered. -/
theorem alertReceived_of_room {f : Frame} {s : State} (hs : s.control.station.speaks = true)
    (h : s.link.inbound.length < 8) : alertReceived f s = { s with
      path := { s.path with lastAlert := some s.now }, link := { s.link with inbound := s.link.inbound ++ [f] } } :=
  deliverBroadcast_of_room (s := { s with path := { s.path with lastAlert := some s.now } }) hs h

theorem alertReceived_of_full {f : Frame} {s : State} (hs : s.control.station.speaks = true)
    (h : 8 ≤ s.link.inbound.length) : alertReceived f s = { s with
      path := { s.path with lastAlert := some s.now }
      link := { s.link with counters := { s.link.counters with
        inboundDrops := min 65535 (s.link.counters.inboundDrops + 1) } } } :=
  deliverBroadcast_of_full (s := { s with path := { s.path with lastAlert := some s.now } }) hs h

theorem alertReceived_of_silent {f : Frame} {s : State} (hs : s.control.station.speaks = false) :
    alertReceived f s = { s with path := { s.path with lastAlert := some s.now } } :=
  deliverBroadcast_of_silent (s := { s with path := { s.path with lastAlert := some s.now } }) hs

/-- Settles O36: the ALERT is heard and delivered, and the attempt in whose window it began fails after it. -/
theorem Settled.alertReceived : Obligations.AlertReceived := by
  intro dt rail r f s p seen hr hh hc hsrc ho hb
  have hhp : p.control.station.hears = true := by simpa [p] using hh
  have hop : p.link.ackOut = none := advance_ackOut_of_none dt s ho
  have hatt : attemptOf p = attemptOf s := by simp [p]
  have hown (q : State) (hq : q.control = p.control) : f.src ≠ ownAddress q := by
    have : ownAddress q = ownAddress s := by simp [ownAddress, cfg, hq, p]
    rwa [this]
  have hst : s.control.station = p.control.station := by simp [p]
  have hin : s.link.inbound = p.link.inbound := by simp [p]
  have hcount : s.link.counters = p.link.counters := by simp [p]
  have hexec : exec (.receiveAlert dt r) s
      = .next (settle false p (onReception r (onFrame f (Machine.alertReceived f)) true p)) := by
    rw [exec_happens (i := .receiveAlert dt r) rfl hr, receiveAlertEffect_of_valid hc hb hhp]
  rw [hexec, hst, hin, hcount]
  refine ⟨fun ha => ?_, fun c start ha hd hs hroom => ?_⟩
  · rw [onReception_of_no_attempt hop (hatt.trans ha), onFrame_of_other (by exact hown _ rfl), hear_lineIdle]
    refine ⟨fun hs hroom => ?_, fun hs hfull => ?_, fun hs => ?_⟩
    · rw [alertReceived_of_room (by exact hs) (by exact hroom)]
      rfl
    · rw [alertReceived_of_full (by exact hs) (by exact hfull)]
      rfl
    · rw [alertReceived_of_silent (by exact hs)]
      rfl
  · intro q hq
    have ha' : attemptOf p = some (c, start) := hatt.trans (attemptOf_of_attempting ha)
    have hw := (inWindow_receivedAt (r := r) ha').mpr ⟨hd, hq⟩
    rw [onReception_of_attempt ha' hop, hw, onFrame_of_other (by exact hown _ rfl), hear_receivedAt]
    simp only [Bool.and_self, ↓reduceIte]
    rw [alertReceived_of_room (by exact hs) (by exact hroom), attemptFails_eq (c := c) (t := start) (by exact ha')]
    rfl

end Sys2Proof.Machine
end

section
/-! SUPPORT. The event flags one by one: which an operation sets, and which the end of a happening leaves alone. -/

namespace Sys2Proof.Machine

/-! ### An event flag is a bit -/

theorem Event.index_lt (e : Event) : e.index < 16 := by cases e <;> decide

theorem Event.index_inj {d e : Event} : d.index = e.index ↔ d = e := by
  cases d <;> cases e <;> decide

theorem Event.getLsbD_bit (d : Event) (e : Event) : d.bit.getLsbD e.index = decide (d = e) := by
  cases d <;> cases e <;> decide

/-- An event is set exactly where its bit is. -/
theorem hasEvent_eq (e : Event) (s : State) : hasEvent e s = s.host.flags.getLsbD e.index := by
  have hbit (i : Nat) (hi : i < 16) : e.bit.getLsbD i = decide (i = e.index) := by
    cases e <;> interval_cases i <;> decide
  rw [Bool.eq_iff_iff, hasEvent, bne_iff_ne, ne_eq]
  constructor
  · intro h
    by_contra hf
    refine h (BitVec.eq_of_getLsbD_eq fun i hi => ?_)
    rw [BitVec.getLsbD_and, hbit i hi]
    by_cases hie : i = e.index
    · subst hie; simpa using hf
    · simp [hie]
  · intro h h0
    have := congrArg (fun v => v.getLsbD e.index) h0
    simp only [BitVec.getLsbD_and, h, hbit _ e.index_lt] at this
    simp at this

/-- The same flags show the same events. -/
theorem hasEvent_congr {s t : State} (h : t.host.flags = s.host.flags) (e : Event) : hasEvent e t = hasEvent e s := by
  rw [hasEvent_eq, hasEvent_eq, h]

/-- Flags added show the events they hold. -/
theorem hasEvent_of_or {s t : State} {f : BitVec 16} (h : t.host.flags = s.host.flags ||| f) (e : Event) :
    hasEvent e t = (hasEvent e s || f.getLsbD e.index) := by
  rw [hasEvent_eq, hasEvent_eq, h, BitVec.getLsbD_or]

/-- An event set. -/
theorem hasEvent_of_bit {s t : State} {d : Event} (h : t.host.flags = s.host.flags ||| d.bit) (e : Event) :
    hasEvent e t = (hasEvent e s || decide (d = e)) := by
  rw [hasEvent_of_or h, Event.getLsbD_bit]

theorem hasEvent_setEvent (d e : Event) (s : State) : hasEvent e (setEvent d s) = (hasEvent e s || decide (d = e)) :=
  hasEvent_of_bit rfl e

/-! ### Events and the end of a happening -/

/-- An event that no rule at the end of a happening sets stands as the effect left it. -/
theorem hasEvent_settle (b : Bool) (p m : State) {e : Event} (he : endBits.getLsbD e.index = false) :
    hasEvent e (settle b p m) = hasEvent e m := by
  have h := congrArg (fun s => s.host.flags.getLsbD e.index) (outside_settle b p m)
  simp only [outside, BitVec.getLsbD_and, BitVec.getLsbD_not, he, e.index_lt, decide_true, Bool.not_false, Bool.and_true]
    at h
  rw [hasEvent_eq, hasEvent_eq, h]

/-- The marks of the happening: the events of a station state or a role value that differs. -/
def changeBits (p s : State) : BitVec 16 :=
  (if p.control.station = s.control.station then 0 else Event.stateChanged.bit)
    ||| (if p.engine.role.value = s.engine.role.value then 0 else Event.roleChanged.bit)

theorem changeEvents_eq (p s : State) :
    changeEvents p s = { s with host := { s.host with flags := s.host.flags ||| changeBits p s } } := by
  unfold changeEvents changeBits
  by_cases h1 : p.control.station = s.control.station <;>
    by_cases h2 : p.engine.role.value = s.engine.role.value <;>
    simp [h1, h2, setEvent, BitVec.or_assoc]

/-- The Path Controller's end of a happening touches the path alone. -/
theorem pathSettle_eq (b : Bool) (p m s : State) : ∃ x, pathSettle b p m s = { s with path := x } := by
  have h1 (u : State) : ∃ x, movePath u = { u with path := x } := by
    unfold movePath; dsimp only; split <;> (try split) <;> exact ⟨_, rfl⟩
  have h2 (u : State) : ∃ x, openShed b p m u = { u with path := x } := by
    unfold openShed; split
    · exact ⟨_, rfl⟩
    · exact ⟨u.path, rfl⟩
  have h3 (u : State) : ∃ x, moveTimer u = { u with path := x } := by
    unfold moveTimer; split <;> exact ⟨_, rfl⟩
  obtain ⟨x1, e1⟩ := h1 s
  obtain ⟨x2, e2⟩ := h2 (movePath s)
  obtain ⟨x3, e3⟩ := h3 (openShed b p m (movePath s))
  exact ⟨x3, by rw [pathSettle, e3, e2, e1]⟩

/-- Outside LOADING the end of a happening is the engine's turn, then the path, the marks and INT. -/
theorem settle_eq {b : Bool} {p m : State} (h : m.control.station ≠ .loading) :
    ∃ i x, settle b p m = { engineSettle p m with
      path := x
      host := { (engineSettle p m).host with
        flags := (engineSettle p m).host.flags ||| changeBits p (engineSettle p m), int := i } } := by
  obtain ⟨x, e⟩ := pathSettle_eq b p m (engineSettle p m)
  have h0 : settle b p m = drive (changeEvents p (pathSettle b p m (engineSettle p m))) := if_neg h
  rw [h0, changeEvents_eq, e]
  exact ⟨_, _, rfl⟩

/-- Where the station is not in JOINED or LEAVING the end of a happening moves the path, the marks and INT alone. -/
theorem settle_of_silent {b : Bool} {p m : State} (hs : m.control.station.speaks = false)
    (hl : m.control.station ≠ .loading) :
    ∃ i x, settle b p m = { m with
      path := x
      host := { m.host with flags := m.host.flags ||| changeBits p m, int := i } } := by
  obtain ⟨i, x, e⟩ := settle_eq (b := b) (p := p) hl
  rw [engineSettle_of_silent hs] at e
  exact ⟨i, x, e⟩

/-- A station state that differs is marked. -/
theorem hasEvent_stateChanged_of_silent {b : Bool} {p m : State} (hs : m.control.station.speaks = false)
    (hl : m.control.station ≠ .loading) (hd : p.control.station ≠ m.control.station) :
    hasEvent .stateChanged (settle b p m) = true := by
  obtain ⟨i, x, e⟩ := settle_of_silent (b := b) (p := p) hs hl
  have hf : (settle b p m).host.flags = m.host.flags ||| changeBits p m := by rw [e]
  rw [hasEvent_of_or hf, changeBits, if_neg hd]
  have : Event.stateChanged.bit.getLsbD Event.stateChanged.index = true := by decide
  rw [BitVec.getLsbD_or, this]
  simp

end Sys2Proof.Machine
end

section
/-! SUPPORT. Directed frames and DECLAREs received, and the frame that carries the station's own address. -/

namespace Sys2Proof.Machine

/-! ### Directed frames -/

section Directed

variable {f : Frame} {s : State} {q : Peer}

/-- A frame for this station from a known source. -/
theorem deliverDirected_known (hd : f.dst = ownAddress s) (hs : s.control.station.speaks = true)
    (hq : findPeer s f.src = some q) :
    deliverDirected f s = if s.link.inbound.length < 8 then
        if q.lastIn = some f.seq then { s with link := { s.link with ackDue := some ⟨f.src, f.seq, s.now + 6⟩ } }
        else { s with
          link := { s.link with ackDue := some ⟨f.src, f.seq, s.now + 6⟩, inbound := s.link.inbound ++ [f] }
          peers := s.peers.map fun x => if x.addr = f.src then { x with lastIn := some f.seq } else x }
      else { s with link := { s.link with counters := { s.link.counters with
        inboundDrops := min 65535 (s.link.counters.inboundDrops + 1) } } } := by
  simp only [deliverDirected, hd, hs, hq, inboundPlaces, ackDelay, bump, counterMax, updatePeer, and_self, ↓reduceIte,
    beq_iff_eq]

/-- A frame that is only heard. -/
theorem deliverDirected_other (h : f.dst ≠ ownAddress s ∨ s.control.station.speaks = false ∨ findPeer s f.src = none) :
    deliverDirected f s = s := by
  unfold deliverDirected
  split
  · rename_i hds
    rcases h with h | h | h
    · exact absurd hds.1 h
    · rw [h] at hds; exact absurd hds.2 (by decide)
    · rw [h]
  · rfl

end Directed

/-- Settles O37: the frame is heard, and then acknowledged and delivered by R136 to R138. -/
theorem directedFrameReceived : Obligations.DirectedFrameReceived := by
  intro dt r f s p h acked hrec hdir
  have hrec' : Receiving r f p := hrec.advance dt
  obtain ⟨hr, hh, hc, -, -, -⟩ := hrec
  have hexec : exec (.receiveDirectedFrame dt r) s = .next (settle false p (deliverDirected f h)) := by
    rw [exec_happens (i := .receiveDirectedFrame dt r) rfl hr, receiveDirectedEffect_of_valid hc hdir hrec'.2.1,
      onReception_of_receiving hrec']
  have hst : s.control.station = h.control.station := by simp [h, heard, p]
  have hown : ownAddress s = ownAddress h := by simp [h, heard, p, ownAddress, cfg]
  have hin : s.link.inbound = h.link.inbound := by simp [h, heard, p]
  have hcount : s.link.counters = h.link.counters := by simp [h, heard, p]
  have hfind : findPeer h f.src = (findPeer s f.src).map fun x =>
      if x.addr = f.src then { x with lastHeard := p.now, liveness := .active } else x := by
    rw [findPeer_heard, findPeer_advance]
  rw [hexec, hst, hown, hin, hcount]
  refine ⟨fun q hd hs hq => ?_, fun hor => ?_⟩
  · have hq' : findPeer h f.src = some { q with lastHeard := p.now, liveness := .active } := by
      have hqa : q.addr = f.src := by simpa using List.find?_some hq
      rw [hfind, hq, Option.map_some, if_pos hqa]
    rw [deliverDirected_known hd hs hq']
    refine ⟨fun hroom hne => ?_, fun hroom he => ?_, fun hfull => ?_⟩
    · rw [if_pos hroom, if_neg hne]
      rfl
    · rw [if_pos hroom, if_pos he]
      rfl
    · rw [if_neg (Nat.not_lt.mpr hfull)]
  · have hsilent (e : h.control.station = .listening) : h.control.station.speaks = false := by rw [e]; rfl
    rw [deliverDirected_other (hor.imp_right (Or.imp hsilent fun hn => by rw [hfind, hn]; rfl))]

/-! ### DECLAREs -/

/-- The entry a DECLARE makes depends on the time alone. -/
theorem newPeer_of_now (src : Nat) (d : Declare) {s t : State} (h : t.now = s.now) : newPeer src d t = newPeer src d s := by
  simp only [newPeer, h]

section Declare

variable {f : Frame} {d : Declare} {s : State} {q : Peer}

theorem declareReceived_inRange (hd : d.inRange = true) (hl : d.leaving = false) :
    declareReceived f d s = deliverBroadcast f (declareStage f.src d s) := by
  simp [declareReceived, hd, hl]

theorem declareReceived_leaving (hd : d.inRange = true) (hl : d.leaving = true) :
    declareReceived f d s = declareStage f.src d s := by
  simp [declareReceived, hd, hl]

theorem declareStage_unknown_leaving (h : findPeer s f.src = none) (hl : d.leaving = true) :
    declareStage f.src d s = s := by
  simp [declareStage, h, hl]

theorem declareStage_unknown (h : findPeer s f.src = none) (hl : d.leaving = false) :
    declareStage f.src d s = createPeer f.src d s := by
  simp [declareStage, h, hl]

theorem declareStage_leaving (h : findPeer s f.src = some q) (hl : d.leaving = true) :
    declareStage f.src d s = losePeer f.src s := by
  simp [declareStage, h, hl]

theorem declareStage_same (h : findPeer s f.src = some q) (hl : d.leaving = false)
    (hi : q.incarnation = d.incarnation) : declareStage f.src d s = refreshPeer f.src d s := by
  simp [declareStage, h, hl, hi]

theorem declareStage_anew (h : findPeer s f.src = some q) (hl : d.leaving = false)
    (hi : q.incarnation ≠ d.incarnation) :
    declareStage f.src d s = createPeer f.src d (losePeer f.src s) := by
  simp [declareStage, h, hl, hi]

end Declare

/-! ### A peer lost -/

/-- No entry of an address and no ask to it. -/
def Strange (a : Nat) (t : State) : Prop := a ∉ t.peers.map Peer.addr ∧ ∀ x ∈ t.engine.asks, x.supplier ≠ a

/-- The end of a happening asks only where there is an entry. -/
theorem strange_ends (a : Nat) : EndsKeep (Strange a) where
  bargains s t _ hb h := by
    refine ⟨by rw [hb.peerAddrs]; exact h.1, fun x hx hxa => ?_⟩
    obtain ⟨y, hy, e⟩ := List.mem_map.mp (hb.asks.subset (List.mem_map_of_mem hx))
    exact h.2 y hy ((Prod.mk.inj e).1.trans hxa)
  turn pre s _ h := by
    obtain ⟨_, _, _, e, -⟩ := builderTurn_eq pre s
    rw [e]
    exact h
  drain s _ h := by
    obtain e | ⟨_, _, _, _, e, -⟩ := checkDrain_eq s
    · rw [e]; exact h
    · rw [e]; exact h
  ask p s hm hp h := by
    obtain ⟨hmem, -⟩ := mem_bestCandidate hp
    have hne : p.addr ≠ a := fun e => h.1 (e ▸ List.mem_map_of_mem hmem)
    obtain ⟨_, e⟩ := startAsk_eq p hm
    rw [e]
    refine ⟨h.1, fun x hx => ?_⟩
    rcases List.mem_append.mp hx with hx | hx
    · exact h.2 x hx
    · rw [List.mem_singleton.mp hx]; exact hne
  path s _ h := by rw [show Strange a (movePath s) ↔ Strange a s by simp [Strange]]; exact h
  timer s h := by rw [show Strange a (moveTimer s) ↔ Strange a s by simp [Strange]]; exact h
  watches _ _ _ _ _ h := h
  flags _ _ _ h := h

/-- Dropping records sets CONTRACTS_CHANGED and no other event. -/
theorem hasEvent_dropRecords (p : Record → Bool) (s : State) {e : Event} (he : e ≠ .contractsChanged) :
    hasEvent e (dropRecords p s) = hasEvent e s := by
  unfold dropRecords
  split
  · have h1 : hasEvent e (noteContracts { s with engine.table := s.engine.table.filter fun r => !p r }) = hasEvent e s := by
      rw [noteContracts, hasEvent_setEvent, decide_eq_false he.symm, Bool.or_false]
      rfl
    rw [← h1]
    exact hasEvent_congr (by rw [noteChange_host]) e
  · rfl

theorem hasEvent_removeAsk (a : Nat) (s : State) (e : Event) : hasEvent e (removeAsk a s) = hasEvent e s := by
  obtain ⟨_, h⟩ := removeAsk_eq a s
  exact hasEvent_congr (by rw [h]) e

/-- Losing a peer sets PEER_LOST where there is an entry. -/
theorem hasEvent_losePeer (a : Nat) (s : State) {e : Event} (he : e ≠ .contractsChanged) :
    hasEvent e (losePeer a s) = (hasEvent e s || (decide (Event.peerLost = e) && knownPeer s a)) := by
  unfold losePeer
  split
  · rename_i h
    rw [hasEvent_setEvent, hasEvent_removeAsk, hasEvent_dropRecords _ _ he, h, Bool.and_true]
    rfl
  · rename_i h
    simp [h]

/-- What is gone with a lost entry. -/
theorem losePeer_known {a : Nat} {s : State} (h : knownPeer s a = true) :
    (losePeer a s).peers = s.peers.filter (fun x => x.addr != a) ∧ Strange a (losePeer a s)
      ∧ (∀ r ∈ (losePeer a s).engine.table, r.counterpart ≠ a) ∧ hasEvent .peerLost (losePeer a s) = true := by
  obtain ⟨c, f, q, e⟩ := losePeer_eq a s
  refine ⟨by rw [e], ⟨?_, ?_⟩, ?_, by rw [hasEvent_losePeer a s (by decide), h]; simp⟩
  · rw [e]
    simp
  · rw [e]
    simp only [h, ↓reduceIte]
    intro x hx
    simpa using (List.mem_filter.mp hx).2
  · rw [e]
    simp only [h, ↓reduceIte]
    intro x hx
    simpa using (List.mem_filter.mp hx).2

theorem losePeer_now (a : Nat) (s : State) : (losePeer a s).now = s.now := by
  obtain ⟨_, _, _, e⟩ := losePeer_eq a s
  rw [e]

theorem losePeer_inbound (a : Nat) (s : State) : (losePeer a s).link.inbound = s.link.inbound := by
  obtain ⟨_, _, _, e⟩ := losePeer_eq a s
  rw [e]

/-- Records that the effect left with no counterpart of an address have none after the happening. -/
theorem counterpart_ne_settle {b : Bool} {p m : State} {a : Nat} (h : ∀ r ∈ m.engine.table, r.counterpart ≠ a) :
    ∀ r ∈ (settle b p m).engine.table, r.counterpart ≠ a := by
  intro r hr
  obtain ⟨q, hq, -, -, -, hc, -, -⟩ := Traced.settle b p m r hr
  rw [hc]
  exact h q hq

theorem knownPeer_of_findPeer {s : State} {a : Nat} {q : Peer} (h : findPeer s a = some q) : knownPeer s a = true := by
  rw [knownPeer, List.any_eq_true]
  exact ⟨q, List.mem_of_find?_eq_some h, by simpa using List.find?_some h⟩

theorem hasEvent_deliverBroadcast (f : Frame) (s : State) (e : Event) :
    hasEvent e (deliverBroadcast f s) = hasEvent e s := by
  obtain ⟨_, h⟩ := deliverBroadcast_eq f s
  exact hasEvent_congr (by rw [h]) e

theorem hasEvent_createPeer (src : Nat) (d : Declare) (s : State) (e : Event) :
    hasEvent e (createPeer src d s) = (hasEvent e s || decide (Event.peerJoined = e)) :=
  hasEvent_of_bit rfl e

/-- An entry made stands in the table. -/
theorem self_mem_insertPeer (p : Peer) (l : List Peer) : p ∈ insertPeer p l := by
  induction l with
  | nil => exact List.mem_cons_self
  | cons x l ih =>
    unfold insertPeer
    split
    · exact List.mem_cons_self
    · split
      · exact List.mem_cons_self
      · exact List.mem_cons_of_mem _ ih

/-- Settles O35: the stage of section 2.3 that the entry of the source and the DECLARE call for. -/
theorem Settled.declareReceived : Obligations.DeclareReceived := by
  intro dt r f d s p h hrec hb
  have hrec' : Receiving r f p := hrec.advance dt
  obtain ⟨hr, -, hc, -, -, -⟩ := hrec
  have hexec : exec (.receiveDeclare dt r) s = .next (settle true p (Machine.declareReceived f d h)) := by
    rw [exec_happens (i := .receiveDeclare dt r) rfl hr, receiveDeclareEffect_of_valid hc hb hrec'.2.1,
      onReception_of_receiving hrec']
  have hst : s.control.station = h.control.station := by simp [h, heard, p]
  have hin : s.link.inbound = h.link.inbound := by simp [h, heard, p]
  have hflags : s.host.flags = h.host.flags := by simp [h, heard, p]
  have hfind : findPeer h f.src = (findPeer s f.src).map fun x =>
      if x.addr = f.src then { x with lastHeard := p.now, liveness := .active } else x := by
    rw [findPeer_heard, findPeer_advance]
  have hnew : newPeer f.src d p = newPeer f.src d h := newPeer_of_now f.src d rfl
  have hnone (hq : findPeer s f.src = none) : findPeer h f.src = none := by rw [hfind, hq]; rfl
  have hsome {q : Peer} (hq : findPeer s f.src = some q) :
      findPeer h f.src = some { q with lastHeard := p.now, liveness := .active } := by
    have hqa : q.addr = f.src := by simpa using List.find?_some hq
    rw [hfind, hq, Option.map_some, if_pos hqa]
  rw [hexec]
  refine ⟨fun hd => ?_, fun hd hq hl => ?_, fun hd hq hl => ?_, fun q hd hq hl hi => ?_, fun q hd hq hl => ?_,
    fun q hd hq hl hi => ?_⟩
  · rw [Machine.declareReceived, if_neg (by simp [hd])]
  · rw [declareReceived_leaving hd hl, declareStage_unknown_leaving (hnone hq) hl]
  · rw [declareReceived_inRange hd hl, declareStage_unknown (hnone hq) hl, hnew, hflags]
    rfl
  · rw [declareReceived_inRange hd hl, declareStage_same (hsome hq) hl hi, hnew]
    have hpeers : (refreshPeer f.src d h).peers = s.peers.map fun x =>
        if x.addr = f.src then { newPeer f.src d h with nextOut := x.nextOut, lastIn := x.lastIn } else x := by
      simp only [refreshPeer, updatePeer, h, heard, p, advance_peers, List.map_map]
      refine List.map_congr_left fun x _ => ?_
      by_cases hx : x.addr = f.src <;> simp [hx]
    rw [← hpeers]
    rfl
  · obtain ⟨-, hstrange, htable, hlost⟩ := losePeer_known (knownPeer_of_findPeer (hsome hq))
    refine ⟨_, rfl, ?_, ?_, ?_, ?_⟩
    all_goals rw [declareReceived_leaving hd hl, declareStage_leaving (hsome hq) hl]
    · rw [Bool.eq_false_iff, Ne, knownPeer_iff, settle_peers]
      exact hstrange.1
    · exact counterpart_ne_settle htable
    · rw [hasEvent_settle _ _ _ (by decide), hlost]
    · rw [settle_inbound, losePeer_inbound, hin]
  · obtain ⟨-, -, htable, hlost⟩ := losePeer_known (knownPeer_of_findPeer (hsome hq))
    obtain ⟨l, hdel⟩ := deliverBroadcast_eq f (createPeer f.src d (losePeer f.src h))
    have hstage : Machine.declareReceived f d h = deliverBroadcast f (createPeer f.src d (losePeer f.src h)) := by
      rw [declareReceived_inRange hd hl, declareStage_anew (hsome hq) hl hi]
    refine ⟨_, rfl, ?_, ?_, ?_, ?_, fun hs hroom => ?_⟩
    all_goals rw [hstage]
    · rw [settle_peers, hdel, hnew, ← newPeer_of_now f.src d (losePeer_now f.src h)]
      exact self_mem_insertPeer _ _
    · exact counterpart_ne_settle (by rw [hdel]; exact htable)
    · rw [hasEvent_settle _ _ _ (by decide), hasEvent_deliverBroadcast, hasEvent_createPeer, hlost, Bool.true_or]
    · rw [hasEvent_settle _ _ _ (by decide), hasEvent_deliverBroadcast, hasEvent_createPeer]
      simp
    · have hin' : (createPeer f.src d (losePeer f.src h)).link.inbound = s.link.inbound :=
        (losePeer_inbound f.src h).trans hin.symm
      rw [settle_inbound, deliverBroadcast_of_room _ (by rw [hin']; exact hroom)]
      · exact congrArg (· ++ [f]) hin'
      · show (losePeer f.src h).control.station.speaks = true
        rw [losePeer_control, ← hst]
        exact hs

end Sys2Proof.Machine
end

section
/-! SUPPORT. The long request completed, and the frame that carries the station's own address. -/

namespace Sys2Proof.Machine

/-! ### Completing the long request -/

/-- The result of the long request in progress. -/
def longResult (c : ResultCode) (s : State) : List Result :=
  (s.host.long.map fun l => (⟨l.tag, l.kind.byte, c, []⟩ : Result)).toList

theorem completeLong_results (c : ResultCode) (s : State) :
    (completeLong c s).host.results = s.host.results ++ longResult c s := by
  unfold completeLong longResult
  cases s.host.long with
  | none => simp
  | some l => rfl

theorem completeLong_long (c : ResultCode) (s : State) : (completeLong c s).host.long = none := by
  unfold completeLong
  cases h : s.host.long with
  | none => exact h
  | some l => rfl

/-- Completing a request sets RESULT_READY and no other event. -/
theorem hasEvent_completeLong (c : ResultCode) (s : State) {e : Event} (he : e ≠ .resultReady) :
    hasEvent e (completeLong c s) = hasEvent e s := by
  unfold completeLong
  cases s.host.long with
  | none => rfl
  | some l =>
    refine (hasEvent_setEvent .resultReady e _).trans ?_
    rw [decide_eq_false he.symm, Bool.or_false]
    rfl

/-! ### Entry to DUPLICATE -/

theorem dropRecords_host (p : Record → Bool) (s : State) :
    ∃ f, (dropRecords p s).host = { s.host with flags := s.host.flags ||| f } := by
  obtain ⟨_, f, e⟩ := dropRecords_eq p s
  exact ⟨f, by rw [e]⟩

/-- What entry to DUPLICATE tells the host. -/
theorem enterDuplicate_host (s : State) : (enterDuplicate s).host.long = none
    ∧ (enterDuplicate s).host.results = s.host.results ++ longResult .aborted s
    ∧ hasEvent .addressConflict (enterDuplicate s) = true := by
  obtain ⟨f, hf⟩ := dropRecords_host (fun _ => true) s
  refine ⟨?_, ?_, ?_⟩
  · exact completeLong_long ..
  · refine (completeLong_results ..).trans ?_
    show (dropRecords (fun _ => true) s).host.results
      ++ ((dropRecords (fun _ => true) s).host.long.map _).toList = _
    rw [hf]
    rfl
  · rw [enterDuplicate, hasEvent_setEvent]
    simp

/-- An attempt that no current frame makes cannot fail. -/
theorem attemptFails_of_no_current {s : State} (h : s.link.current = none) : attemptFails s = s := by
  simp [attemptFails, attemptOf, h]

/-- A frame with the station's own address puts it into DUPLICATE, whatever attempt was in progress. -/
theorem onReception_conflict {r : Reception} {f : Frame} {rest : State → State} {fails : Bool} {s : State}
    (h : f.src = ownAddress s) : ∃ t : State, onReception r (onFrame f rest) fails s = enterDuplicate t
      ∧ t.control = s.control ∧ t.engine = s.engine ∧ t.peers = s.peers ∧ t.host = s.host
      ∧ t.link.counters = s.link.counters := by
  have hframe : (receptionEnd r s).control = s.control ∧ (receptionEnd r s).engine = s.engine
      ∧ (receptionEnd r s).peers = s.peers ∧ (receptionEnd r s).host = s.host
      ∧ (receptionEnd r s).link.counters = s.link.counters := by
    unfold receptionEnd
    split
    · exact ⟨rfl, rfl, rfl, rfl, rfl⟩
    · simp
  refine ⟨lineIdle (receptionEnd r s), ?_, hframe⟩
  have hown : f.src = ownAddress (lineIdle (receptionEnd r s)) := by
    have : ownAddress (lineIdle (receptionEnd r s)) = ownAddress (receptionEnd r s) := rfl
    rw [this, ownAddress, cfg, hframe.1, h]
    rfl
  have hcur : (enterDuplicate (lineIdle (receptionEnd r s))).link.current = none := by
    obtain ⟨_, e, -⟩ := enterDuplicate_eq (lineIdle (receptionEnd r s))
    rw [e]
    rfl
  simp only [onReception, onFrame, hown, ↓reduceIte, attemptFails_of_no_current hcur, ite_self]

/-- The command of the frame's kind hands it to the receiver. -/
theorem exec_receiveCommand (dt : Nat) {r : Reception} {f : Frame} {s : State} (hr : s.control.resetHeld = false)
    (hh : s.control.station.hears = true) (hc : classify r = .valid f) : ∃ b rest fails,
      exec (receiveCommand dt r f.body) s
        = .next (settle b (advance dt s) (onReception r (onFrame f rest) fails (advance dt s))) := by
  have hhp : (advance dt s).control.station.hears = true := by simpa using hh
  have directed (hd : f.body.isDirected = true) (hcmd : receiveCommand dt r f.body = .receiveDirectedFrame dt r) :
      ∃ b rest fails, exec (receiveCommand dt r f.body) s
        = .next (settle b (advance dt s) (onReception r (onFrame f rest) fails (advance dt s))) := by
    rw [hcmd, exec_happens (i := .receiveDirectedFrame dt r) rfl hr, receiveDirectedEffect_of_valid hc hd hhp]
    exact ⟨_, _, _, rfl⟩
  cases hb : f.body with
  | declare d =>
    rw [receiveCommand, exec_happens (i := .receiveDeclare dt r) rfl hr, receiveDeclareEffect_of_valid hc hb hhp]
    exact ⟨_, _, _, rfl⟩
  | alert rail =>
    rw [receiveCommand, exec_happens (i := .receiveAlert dt r) rfl hr, receiveAlertEffect_of_valid hc hb hhp]
    exact ⟨_, _, _, rfl⟩
  | ack =>
    rw [receiveCommand, exec_happens (i := .receiveAck dt r) rfl hr, receiveAckEffect_of_valid hc hb hhp]
    exact ⟨_, _, _, rfl⟩
  | _ => rw [← hb]; exact directed (by rw [hb]; rfl) (by rw [hb]; rfl)

/-- Settles O40: every kind of frame is handed to the receiver, which finds the conflict first. -/
theorem addressConflictStops : Obligations.AddressConflictStops := by
  intro dt r f s hr hh hc hsrc
  obtain ⟨b, rest, fails, hexec⟩ := exec_receiveCommand dt hr hh hc
  obtain ⟨t, ht, hcontrol, hengine, hpeers, hhost, hcounters⟩ :=
    onReception_conflict (r := r) (rest := rest) (fails := fails) (s := advance dt s) (by simpa [ownAddress] using hsrc)
  obtain ⟨h', hdup, -⟩ := enterDuplicate_eq t
  obtain ⟨hlong, hresults, hconflict⟩ := enterDuplicate_host t
  have hst : (enterDuplicate t).control.station = .duplicate := by rw [hdup]
  have hs : (enterDuplicate t).control.station.speaks = false := by rw [hst]; rfl
  have hl : (enterDuplicate t).control.station ≠ .loading := by rw [hst]; decide
  obtain ⟨i, x, e⟩ := settle_of_silent (b := b) (p := advance dt s) hs hl
  rw [hexec, ht]
  refine ⟨_, rfl, ?_, ?_, ?_, ?_, ?_, ?_, ?_, ?_, ?_, ?_⟩
  · rw [settle_control, hst]
  · rw [e, hdup]
  · rw [e, hdup]
  · rw [e, hdup]
  · rw [e, hdup]
    simp [hcounters]
  · rw [e, hdup]
    simp [hpeers]
  · rw [e]; exact hlong
  · rw [e]
    refine hresults.trans ?_
    rw [longResult, hhost, advance_host]
    cases s.host.long <;> rfl
  · rw [hasEvent_settle _ _ _ (by decide), hconflict]
  · refine hasEvent_stateChanged_of_silent hs hl ?_
    rw [hst, advance_control]
    intro h
    rw [h] at hh
    cases hh

end Sys2Proof.Machine
end

section
/-! SUPPORT. The path at the end of a happening: the engine's turn leaves it, then limit, state, timer and window follow. -/

namespace Sys2Proof.Machine

/-! ### The engine's turn leaves the path, the clock and the peers' addresses -/

@[simp] theorem builderTurn_path (pre s : State) : (builderTurn pre s).path = s.path := by
  obtain ⟨_, _, _, e, -⟩ := builderTurn_eq pre s
  rw [e]

@[simp] theorem checkDrain_path (s : State) : (checkDrain s).path = s.path := by
  rcases checkDrain_eq s with e | ⟨_, _, _, _, e, -⟩
  · rw [e]
  · rw [e]

@[simp] theorem requeueAsks_path (n : Nat) (s : State) : (requeueAsks n s).path = s.path :=
  ((Bargains.refl (b := true) (c := True) s).requeueAsks n).path

@[simp] theorem placeNotices_path (s : State) : (placeNotices s).path = s.path :=
  ((Bargains.refl (b := true) (c := True) s).placeNotices).path

theorem startAsks_path (n : Nat) (s : State) : (startAsks n s).path = s.path := by
  induction n generalizing s with
  | zero => rfl
  | succ n ih =>
    unfold startAsks
    split
    · rename_i hm
      split
      · rename_i p _
        obtain ⟨_, e⟩ := startAsk_eq p hm
        rw [ih, e]
      · rfl
    · rfl

@[simp] theorem engineSettle_path (p m : State) : (engineSettle p m).path = m.path := by
  cases hs : m.control.station.speaks with
  | false => rw [engineSettle_of_silent hs]
  | true =>
    have h1 : (trimExcess (planRecalls p m)).path = m.path :=
      (((Bargains.refl (b := true) (c := True) m).planRecalls p).trimExcess).path
    have h2 : (beforeNotices p m).path = m.path := by
      unfold beforeNotices
      split
      · exact h1
      · rw [builderTurn_path, h1]
    rw [engineSettle_of_speaks hs, startAsks_path, requeueAsks_path, builderTurn_path, checkDrain_path, placeNotices_path,
      h2]

@[simp] theorem engineSettle_now (p m : State) : (engineSettle p m).now = m.now :=
  congrArg (fun s => s.now) (outside_engineSettle p m)

/-! ### One rule per step of the Path Controller -/

variable (b : Bool) (p m s : State)

@[simp] theorem movePath_limit : (movePath s).path.limit = limitOf s := by
  unfold movePath; dsimp only; split <;> (try split) <;> rfl

@[simp] theorem movePath_now : (movePath s).now = s.now := congrArg (fun s => s.now) (outside_movePath s)

@[simp] theorem movePath_overdraw : (movePath s).path.overdraw = s.path.overdraw := by
  unfold movePath; dsimp only; split <;> (try split) <;> rfl

@[simp] theorem movePath_shedEnd : (movePath s).path.shedEnd = s.path.shedEnd := by
  unfold movePath; dsimp only; split <;> (try split) <;> rfl

@[simp] theorem movePath_pathSense : (movePath s).path.pathSense = s.path.pathSense := by
  unfold movePath; dsimp only; split <;> (try split) <;> rfl

@[simp] theorem movePath_tripped : (movePath s).path.state = .tripped ↔ s.path.state = .tripped := by
  unfold movePath
  dsimp only
  cases h : s.path.state <;> dsimp only <;> (try split) <;> simp

theorem movePath_of_zero (ht : s.path.state ≠ .tripped) (h0 : limitOf s = 0) :
    (movePath s).path.state = .opened ∧ (movePath s).path.rampEnd = none := by
  unfold movePath
  dsimp only
  cases h : s.path.state <;> simp_all

theorem movePath_of_opened (ho : s.path.state = .opened) (h0 : 0 < limitOf s) :
    (movePath s).path.state = .ramping ∧ (movePath s).path.rampEnd = some (s.now + ms (cfg s).rampTime) := by
  simp [movePath, ho, h0]

theorem movePath_of_driven (hd : s.path.state = .ramping ∨ s.path.state = .closed) (h0 : 0 < limitOf s) :
    (movePath s).path.state = s.path.state ∧ (movePath s).path.rampEnd = s.path.rampEnd := by
  rcases hd with hd | hd <;> simp [movePath, hd, h0.ne']

theorem movePath_of_tripped (ht : s.path.state = .tripped) : (movePath s).path = { s.path with limit := limitOf s } := by
  simp [movePath, ht]

@[simp] theorem openShed_state : (openShed b p m s).path.state = s.path.state := by unfold openShed; split <;> rfl
@[simp] theorem openShed_limit : (openShed b p m s).path.limit = s.path.limit := by unfold openShed; split <;> rfl
@[simp] theorem openShed_rampEnd : (openShed b p m s).path.rampEnd = s.path.rampEnd := by unfold openShed; split <;> rfl
@[simp] theorem openShed_overdraw : (openShed b p m s).path.overdraw = s.path.overdraw := by unfold openShed; split <;> rfl
@[simp] theorem openShed_pathSense : (openShed b p m s).path.pathSense = s.path.pathSense := by
  unfold openShed; split <;> rfl
@[simp] theorem openShed_now : (openShed b p m s).now = s.now := by unfold openShed; split <;> rfl
@[simp] theorem openShed_control : (openShed b p m s).control = s.control := by unfold openShed; split <;> rfl
@[simp] theorem openShed_roles : (openShed b p m s).engine = s.engine := by unfold openShed; split <;> rfl

@[simp] theorem moveTimer_state : (moveTimer s).path.state = s.path.state := by unfold moveTimer; split <;> rfl
@[simp] theorem moveTimer_limit : (moveTimer s).path.limit = s.path.limit := by unfold moveTimer; split <;> rfl
@[simp] theorem moveTimer_rampEnd : (moveTimer s).path.rampEnd = s.path.rampEnd := by unfold moveTimer; split <;> rfl
@[simp] theorem moveTimer_shedEnd : (moveTimer s).path.shedEnd = s.path.shedEnd := by unfold moveTimer; split <;> rfl
@[simp] theorem moveTimer_pathSense : (moveTimer s).path.pathSense = s.path.pathSense := by unfold moveTimer; split <;> rfl

/-! ### The path that the end of a happening leaves -/

variable {b p m s}

/-- The path after the engine's turn and the Path Controller's, with its outputs. -/
theorem settle_path (hl : m.control.station ≠ .loading) :
    (settle b p m).path = { (pathSettle b p m (engineSettle p m)).path with
      pathEn := decide ((pathSettle b p m (engineSettle p m)).path.state = .ramping
        ∨ (pathSettle b p m (engineSettle p m)).path.state = .closed)
      limitOut := min fullScale (pathSettle b p m (engineSettle p m)).path.limit } := by
  have h0 : settle b p m = drive (changeEvents p (pathSettle b p m (engineSettle p m))) := if_neg hl
  rw [h0, changeEvents_eq]
  rfl

/-- The limit depends on the path only by its being TRIPPED. -/
theorem limitOf_congr {t : State} (hc : t.control = s.control) (he : t.engine = s.engine)
    (hp : t.path.state = .tripped ↔ s.path.state = .tripped) : limitOf t = limitOf s := by
  have hx : cfg t = cfg s := by simp [cfg, hc]
  have hh : held t = held s := by simp [held, he]
  have hm : committed t = committed s := by simp [committed, he]
  simp [limitOf, allowance, hc, he, hp, hx, hh, hm]

theorem isDrawLimit_congr {t : State} (hc : t.control = s.control) (he : t.engine = s.engine)
    (hp : t.path.state = .tripped ↔ s.path.state = .tripped) : isDrawLimit t = isDrawLimit s := by
  simp [isDrawLimit, hc, he, hp]

theorem settle_path_tripped (hl : m.control.station ≠ .loading) :
    (settle b p m).path.state = .tripped ↔ m.path.state = .tripped := by
  simp [settle_path hl, pathSettle]

theorem settle_path_limit (hl : m.control.station ≠ .loading) :
    (settle b p m).path.limit = limitOf (engineSettle p m) := by
  simp [settle_path hl, pathSettle]

theorem limitOf_settle (hl : m.control.station ≠ .loading) :
    limitOf (settle b p m) = limitOf (engineSettle p m) :=
  limitOf_congr (by simp) (settle_engine hl) (by simp [settle_path_tripped hl])

theorem settle_path_state (hl : m.control.station ≠ .loading) :
    (settle b p m).path.state = (movePath (engineSettle p m)).path.state := by
  simp [settle_path hl, pathSettle]

theorem settle_path_rampEnd (hl : m.control.station ≠ .loading) :
    (settle b p m).path.rampEnd = (movePath (engineSettle p m)).path.rampEnd := by
  simp [settle_path hl, pathSettle]

theorem settle_path_pathSense (hl : m.control.station ≠ .loading) :
    (settle b p m).path.pathSense = m.path.pathSense := by
  simp [settle_path hl, pathSettle]

/-- The overdraw timer at the end of a happening, in the state it leaves. -/
theorem settle_path_overdraw (hl : m.control.station ≠ .loading) : (settle b p m).path.overdraw
    = if overdrawWatched (settle b p m) = true ∧ limitOf (settle b p m) + (cfg (settle b p m)).overdrawMargin
        < (settle b p m).path.pathSense then some (m.path.overdraw.getD m.now) else none := by
  have hd : isDrawLimit (settle b p m) = isDrawLimit (openShed b p m (movePath (engineSettle p m))) :=
    isDrawLimit_congr (by simp) (by simp [settle_engine hl]) (by simp [settle_path_tripped hl])
  have hw : overdrawWatched (settle b p m) = overdrawWatched (openShed b p m (movePath (engineSettle p m))) := by
    simp only [overdrawWatched, hd, settle_path_state hl]
    simp
  have hc : cfg (settle b p m) = cfg m := by simp [cfg]
  rw [hw, limitOf_settle hl, settle_path_pathSense hl, hc, settle_path hl]
  dsimp only
  unfold pathSettle moveTimer
  have hx : cfg (openShed b p m (movePath (engineSettle p m))) = cfg m := by simp [cfg]
  simp only [Bool.and_eq_true, decide_eq_true_eq, openShed_limit, movePath_limit, hx, openShed_pathSense,
    movePath_pathSense, engineSettle_path, openShed_overdraw, movePath_overdraw, openShed_now, movePath_now,
    engineSettle_now]
  split <;> rfl

/-- The shed window at the end of a happening. -/
theorem settle_path_shedEnd (hl : m.control.station ≠ .loading) : (settle b p m).path.shedEnd
    = if b = true ∧ p.control.station = m.control.station ∧ held m < held p ∧ limitOf (settle b p m) < p.path.limit
        ∧ isDrawLimit (settle b p m) = true then some (m.now + ms (cfg m).shedGrace) else m.path.shedEnd := by
  have hd : isDrawLimit (settle b p m) = isDrawLimit (movePath (engineSettle p m)) :=
    isDrawLimit_congr (by simp) (by simp [settle_engine hl]) (by simp [settle_path_tripped hl])
  rw [hd, limitOf_settle hl, settle_path hl]
  dsimp only
  rw [pathSettle, moveTimer_shedEnd]
  unfold openShed
  have hx : cfg (movePath (engineSettle p m)) = cfg m := by simp [cfg]
  simp only [Bool.and_eq_true, decide_eq_true_eq, movePath_limit, hx, movePath_now, engineSettle_now, and_assoc]
  split <;> simp

/-- A draw limit, in the words of R111. -/
theorem isDrawLimit_iff (hl : s.control.station ≠ .loading) : isDrawLimit s = true ↔ s.control.station ≠ .configFault
    ∧ (s.control.station.speaks = true → s.path.state = .tripped ∨ s.engine.role.supplies = false) := by
  unfold isDrawLimit
  cases h : s.control.station <;> simp_all [Station.speaks]

/-- Overdraw is evaluated on a CLOSED path with a draw limit, in JOINED and LEAVING. -/
theorem overdrawWatched_iff : overdrawWatched s = true ↔ s.path.state = .closed ∧ s.control.station.speaks = true
    ∧ s.engine.role.supplies = false := by
  unfold overdrawWatched isDrawLimit
  cases h : s.control.station <;> by_cases hc : s.path.state = .closed <;> simp [Station.speaks, hc]

/-- Settles O19, field by field from the rules of the Path Controller. -/
theorem limitFollows : Obligations.LimitFollows := by
  intro b p m hl t draws
  have hE : (engineSettle p m).path.state = m.path.state := by simp
  have hlim : limitOf t = limitOf (engineSettle p m) := limitOf_settle hl
  have hstate : t.path.state = (movePath (engineSettle p m)).path.state := settle_path_state hl
  have hramp : t.path.rampEnd = (movePath (engineSettle p m)).path.rampEnd := settle_path_rampEnd hl
  have hdraws : draws ↔ isDrawLimit t = true := (isDrawLimit_iff (by simpa [t] using hl)).symm
  refine ⟨(settle_path_limit hl).trans hlim.symm, ?_, ?_, settle_path_tripped hl, fun h1 h2 => ?_, fun h1 h2 => ?_,
    fun h1 h2 => ?_, fun h => ?_, fun h => ?_, fun ⟨h1, h2, h3, h4, h5⟩ => ?_, fun h => ?_⟩
  · rw [hlim, ← settle_path_limit (b := b) hl, settle_path hl, fullScale]
  · show (settle b p m).path.pathEn = true ↔ (settle b p m).path.state = _ ∨ (settle b p m).path.state = _
    rw [settle_path hl]
    simp
  · rw [hstate, hramp]
    exact movePath_of_zero _ (by rwa [hE]) (hlim ▸ h2)
  · rw [hstate, hramp]
    have e := movePath_of_opened (engineSettle p m) (by rwa [hE]) (hlim ▸ h2)
    rwa [engineSettle_now, show cfg (engineSettle p m) = cfg m by simp [cfg]] at e
  · rw [hstate, hramp]
    have e := movePath_of_driven (engineSettle p m) (by rwa [hE]) (hlim ▸ h2)
    rwa [engineSettle_path] at e
  · obtain ⟨h1, h2, h3, h4⟩ := h
    rw [show t.path.overdraw = _ from settle_path_overdraw hl, if_pos ⟨overdrawWatched_iff.mpr ⟨h1, h2, h3⟩, h4⟩]
  · rw [show t.path.overdraw = _ from settle_path_overdraw hl, if_neg]
    rintro ⟨h1, h2⟩
    obtain ⟨k1, k2, k3⟩ := overdrawWatched_iff.mp h1
    exact h ⟨k1, k2, k3, h2⟩
  · rw [show t.path.shedEnd = _ from settle_path_shedEnd hl, if_pos ⟨h1, h2, h3, h4, hdraws.mp h5⟩]
    rfl
  · rw [show t.path.shedEnd = _ from settle_path_shedEnd hl, if_neg]
    rintro ⟨h1, h2, h3, h4, h5⟩
    exact h ⟨h1, h2, h3, h4, hdraws.mpr h5⟩

end Sys2Proof.Machine
end

section
/-! SUPPORT. The timers of peers, asks, holds, recalls and the suspension, and the inputs of the path. -/

namespace Sys2Proof.Machine

/-! ### What a timer's end does -/

section Timers

variable {s : State} {a d : Nat}

theorem peerFallsSilent_of_active {q : Peer} (hf : findPeer s a = some q) (hh : s.control.station.hears = true)
    (hl : q.liveness = .active) : peerFallsSilent a s = { reach (q.lastHeard + 2 * (1250 * q.period)) s with
      peers := s.peers.map fun x => if x.addr = a then { x with liveness := .silent } else x } := by
  have hp : periodTime q.period = 1250 * q.period := by simp only [periodTime, ms]; omega
  simp [peerFallsSilent, hf, hh, hl, updatePeer, hp]

theorem peerIsLost_of_found {q : Peer} (hf : findPeer s a = some q) (hh : s.control.station.hears = true) :
    peerIsLost a s = losePeer a (reach (q.lastHeard + 3 * (1250 * q.period)) s) := by
  have hp : periodTime q.period = 1250 * q.period := by simp only [periodTime, ms]; omega
  simp [peerIsLost, hf, hh, hp]

theorem askTimesOut_eq {x : Ask} (hf : findAsk s a = some x) (hx : x.state = .asked d) :
    askTimesOut a s = skipping a (withoutAsk x (reach d s)) := by
  rw [askTimesOut_of_asked hf hx, failAsk_of_found (by simpa using hf)]

theorem holdEnds_of_held {x : Ask} (hf : findAsk s a = some x) (hx : x.state = .held d) :
    holdEnds a s = { reach d s with engine := { s.engine with asks := s.engine.asks.map fun y =>
      if y.supplier = a then { y with state := .waiting d } else y } } := by
  simp [holdEnds, hf, hx, updateAsk]

theorem recallExpires_of_recalling {r : Record} {i target : Nat} {tv : Revision} (hs : s.control.station.speaks = true)
    (hf : findSupply s i = some r) (hr : r.state = .recalling target tv d) :
    recallExpires i s = withRecord { r with state := .closing, owed := some .release } (reach d s) := by
  have h : recallExpires i s = putRecord { r with state := .closing, owed := some .release } (reach d s) := by
    simp [recallExpires, hf, hr]
  obtain ⟨-, -, hsup, hid⟩ := findSupply_spec hf
  have hfind : findRecord r.supplier r.id (reach d s).engine.table = some r := by
    rw [reach_engine, hsup, hid]
    exact (Option.filter_eq_some_iff.mp hf).1
  rw [h]
  exact putRecord_of_found (old := r) (by exact hfind) (by simp [Record.visible, hr, RecordState.code])
    (.inr (by simp [Record.isClosing, hr])) (by simpa using hs)

theorem suspensionEnds_of_suspended (h : s.engine.suspendEnd = some d) :
    suspensionEnds s = { reach d s with engine := { s.engine with suspendEnd := none } } := by
  simp [suspensionEnds, h]

end Timers

/-- Settles O56: each timer's end, in the happening that takes it. -/
theorem engineTimersEnd : Obligations.EngineTimersEnd := by
  intro dt d s p hr
  refine ⟨fun a x hf hx => ?_, fun a x hf hx => ?_, fun i r target tv hs hf hx => ?_, fun h => ?_⟩
  · rw [exec_happens (i := .askTimeout dt a) rfl hr, askTimesOut_eq (d := d) (by simpa using hf) hx]
  · rw [exec_happens (i := .holdEnd dt a) rfl hr, holdEnds_of_held (d := d) (by simpa using hf) hx]
    simp [p]
  · rw [exec_happens (i := .recallDeadline dt i) rfl hr,
      recallExpires_of_recalling (d := d) (by simpa using hs) (by simpa using hf) hx]
  · rw [exec_happens (i := .alertSuspensionEnd dt) rfl hr, suspensionEnds_of_suspended (d := d) (by simpa using h)]

/-- Settles O54: a threshold passed, and what is gone with a lost entry stays gone. -/
theorem peerTimersEnd : Obligations.PeerTimersEnd := by
  intro dt a q s p hr hh hf
  have hfp : findPeer p a = some q := by simpa [p] using hf
  have hhp : p.control.station.hears = true := by simpa [p] using hh
  refine ⟨fun hl => ?_, ?_⟩
  · rw [exec_happens (i := .peerSilent dt a) rfl hr, peerFallsSilent_of_active hfp hhp hl]
    simp [p]
  · have hm := exec_happens (i := .peerLostThreshold dt a) rfl hr
    rw [peerIsLost_of_found hfp hhp] at hm
    obtain ⟨hpeers, hstrange, hrecords, hevent⟩ := losePeer_known (s := reach (q.lastHeard + 3 * (1250 * q.period)) p) (a := a)
      (by simpa using knownPeer_of_findPeer hfp)
    refine ⟨_, hm, ?_, ?_, counterpart_ne_settle hrecords, ((strange_ends a).settle true p hstrange).2, ?_⟩
    · rw [settle_now, losePeer_now, reach_now]
    · rw [settle_peers, hpeers]
      simp [p, bne, beq_eq_decide]
    · rw [hasEvent_settle _ _ _ (by decide)]
      exact hevent

/-- Time leaves the path. -/
theorem advance_withPath (dt : Nat) (x : PathCtl) (s : State) :
    advance dt { s with path := x } = { advance dt s with path := x } := by
  simp only [advance, reach]
  cases s.link.ackOut with
  | none => rfl
  | some a => dsimp only; split <;> rfl

/-- Settles O58: the ramp's end, the reading and the supply. -/
theorem pathInputsFollowed : Obligations.PathInputsFollowed := by
  intro dt current e s hr p q
  have hq : advance dt { s with path := { s.path with pathSense := current } } = q := by
    rw [advance_withPath]
    simp [q, p]
  refine ⟨fun h1 h2 => ?_, ?_, fun h => ⟨?_, ?_⟩, fun h => ⟨?_, ?_⟩⟩
  · rw [exec_happens (i := .rampEnd dt) rfl hr]
    have : rampEnds p = { reach e p with path := { p.path with state := .closed, rampEnd := none } } := by
      simp [rampEnds, p, h1, h2]
    rw [this]
  · show (.next (happen false dt _ _) : Answer) = _
    rw [happen_of_not_held { s with path := { s.path with pathSense := current } } false dt _ hr, hq]
  · rw [exec_happens (i := .supplyLoss dt) rfl hr]
    simp [followSupply, p, h]
  · rw [exec_happens (i := .supplyReturn dt) rfl hr]
    simp [followSupply, p, h]
  · rw [exec_happens (i := .supplyLoss dt) rfl hr]
    simp [followSupply, p, h]
  · rw [exec_happens (i := .supplyReturn dt) rfl hr]
    simp [followSupply, p, h]

end Sys2Proof.Machine
end

section
/-! SUPPORT. The trip of the path and the brownout of the rail. -/

namespace Sys2Proof.Machine

/-! ### No taker-side record ACTIVE -/

/-- The record is not an ACTIVE taker-side one. -/
def Record.untaken (r : Record) : Prop := r.side = .take → r.state ≠ .active

/-- No taker-side record is ACTIVE. -/
def Untaken (s : State) : Prop := ∀ r ∈ s.engine.table, r.untaken

theorem Untaken.putRecord {s : State} (h : Untaken s) {n : Record} (hn : n.untaken) : Untaken (putRecord n s) := by
  intro r hr
  rcases mem_putRecord hr with rfl | hr
  · exact hn
  · exact h r hr

theorem Untaken.dropRecord {s : State} (h : Untaken s) (a i : Nat) : Untaken (dropRecord a i s) := by
  intro r hr
  rw [Machine.dropRecord, dropRecords_table] at hr
  exact h r (List.mem_filter.mp hr).1

theorem Untaken.of_table {s t : State} (h : Untaken s) (e : t.engine.table = s.engine.table) : Untaken t := by
  rw [Untaken, e]
  exact h

theorem Untaken.foldl {g : State → Record → State} {rs : List Record}
    (hg : ∀ t r, r ∈ rs → Untaken t → Untaken (g t r)) {s : State} (h : Untaken s) : Untaken (rs.foldl g s) := by
  induction rs generalizing s with
  | nil => exact h
  | cons r rs ih =>
    exact ih (fun t x hx => hg t x (List.mem_cons_of_mem r hx)) (hg s r List.mem_cons_self h)

theorem Untaken.startRecall {s : State} (h : Untaken s) (n : Nat) (r : Record) : Untaken (startRecall n r s) :=
  h.putRecord fun _ => nofun

theorem Untaken.planRecalls {s : State} (h : Untaken s) (p : State) : Untaken (planRecalls p s) := by
  unfold Machine.planRecalls
  split
  · refine .foldl (fun t r _ ht => ?_) h
    unfold planOne
    split
    · exact ht
    · exact ht.startRecall _ r
  · exact .foldl (fun t r _ ht => ht.startRecall 0 r) h
  · exact h

theorem Untaken.trimExcess {s : State} (h : Untaken s) : Untaken (trimExcess s) := by
  unfold Machine.trimExcess
  split
  · refine .foldl (fun t r hr ht => ?_) h
    have hpass : (r.isTake && r.isActive) = false := by
      by_contra hc
      simp only [Record.isTake, Record.isActive, Bool.not_eq_false, Bool.and_eq_true, decide_eq_true_eq] at hc
      exact h r (List.mem_reverse.mp hr) hc.1 hc.2
    rw [trimOne, if_pos (.inr (.inl hpass))]
    exact ht
  · exact h

theorem Untaken.placeNotices {s : State} (h : Untaken s) : Untaken (placeNotices s) := by
  refine .foldl (fun t r hr ht => ?_) h
  unfold placeNotice
  split
  · exact ht
  · split
    · dsimp only
      split
      · exact (ht.of_table (by simp)).dropRecord _ _
      · exact (ht.of_table (by simp)).putRecord (h r hr)
    · exact ht

/-- A happening that leaves no ACTIVE taker-side record makes none ACTIVE in its end. -/
theorem Untaken.settle {m : State} (h : Untaken m) (b : Bool) (p : State) : Untaken (settle b p m) := by
  cases hs : m.control.station.speaks with
  | true =>
    refine Untaken.of_table (s := Machine.placeNotices (beforeNotices p m)) ?_ (settle_table hs)
    refine Untaken.placeNotices ?_
    unfold beforeNotices
    split
    · exact (h.planRecalls p).trimExcess
    · exact (h.planRecalls p).trimExcess.of_table (by simp)
  | false =>
    refine h.of_table ?_
    by_cases hl : m.control.station = .loading
    · simp [Machine.settle, hl, Machine.drive]
    · rw [settle_engine hl, engineSettle_of_silent hs]

/-- While the path is TRIPPED no ask starts. -/
theorem unasked_ends : EndsKeep fun s => s.path.state = .tripped ∧ s.engine.asks = [] where
  bargains s t _ hb h := by
    refine ⟨by rw [hb.path]; exact h.1, ?_⟩
    have := hb.asks
    simpa [h.2] using this
  turn pre s _ h := by
    obtain ⟨_, _, _, e, -⟩ := builderTurn_eq pre s
    rw [e]
    exact h
  drain s _ h := by
    obtain e | ⟨_, _, _, _, e, -⟩ := checkDrain_eq s
    · rw [e]; exact h
    · rw [e]; exact h
  ask p s hm _ h := absurd h.1 ((mayAsk_iff s).mp hm).2.2.1
  path s _ h := ⟨(movePath_tripped s).mpr h.1, by simpa using h.2⟩
  timer s h := ⟨by simpa using h.1, by simpa using h.2⟩
  watches s p hp _ _ h := ⟨hp.trans h.1, h.2⟩
  flags _ _ _ h := h

/-! ### The trip -/

/-- What a trip leaves, whatever the state. -/
theorem tripPath_spec (s : State) : Bargains false True
      { s with path := { s.path with state := .tripped, overdraw := none, shedEnd := none, rampEnd := none } } (tripPath s)
    ∧ (tripPath s).engine.asks = [] ∧ Untaken (tripPath s) ∧ hasEvent .pathTripped (tripPath s) = true := by
  refine ⟨((((Bargains.refl _).closeAllTake).removeAllAsks).setEvent _), ?_, ?_, ?_⟩
  · exact removeAllAsks_asks _
  · intro r hr
    refine closeAllTake_none
      { s with path := { s.path with state := .tripped, overdraw := none, shedEnd := none, rampEnd := none } } r ?_
    rwa [tripPath, setEvent_engine, removeAllAsks_table] at hr
  · rw [tripPath, hasEvent_setEvent, decide_eq_true rfl, Bool.or_true]

/-- PATH_EN shows the path state that the happening leaves. -/
theorem settle_pathEn {b : Bool} {p m : State} (hl : m.control.station ≠ .loading) : (settle b p m).path.pathEn
    = decide ((settle b p m).path.state = .ramping ∨ (settle b p m).path.state = .closed) := by
  rw [settle_path hl]

/-- A happening that trips the path. -/
theorem settle_tripPath (p u : State) (hl : u.control.station ≠ .loading) :
    let t := settle false p (tripPath u)
    (t.path.state = .tripped ∧ t.engine.asks = [] ∧ (∀ r ∈ t.engine.table, r.side = .take → r.state ≠ .active)
        ∧ t.path.overdraw = none ∧ t.path.shedEnd = none ∧ t.path.pathEn = false ∧ hasEvent .pathTripped t = true)
      ∧ t.now = u.now := by
  intro t
  obtain ⟨hb, hasks, hrecords, hevent⟩ := tripPath_spec u
  have hl' : (tripPath u).control.station ≠ .loading := by rw [hb.control]; exact hl
  have hm : (tripPath u).path.state = .tripped := by rw [hb.path]
  have ht : t.path.state = .tripped := (settle_path_tripped hl').mpr hm
  refine ⟨⟨ht, (unasked_ends.settle false p ⟨hm, hasks⟩).2, hrecords.settle false p, ?_, ?_, ?_, ?_⟩, ?_⟩
  · rw [settle_path_overdraw hl', if_neg]
    rintro ⟨hw, -⟩
    have := (overdrawWatched_iff.mp hw).1
    rw [ht] at this
    cases this
  · rw [settle_path_shedEnd hl', if_neg (by simp), hb.path]
  · rw [settle_pathEn hl', ht]
    rfl
  · rw [hasEvent_settle _ _ _ (by decide)]
    exact hevent
  · rw [settle_now, hb.now]

theorem windowEnds_of_idle {s : State} {w : Nat} (h : s.path.overdraw = none) (hw : s.path.shedEnd = some w) :
    windowEnds s = { reach w s with path := { s.path with shedEnd := none } } := by
  simp [windowEnds, hw, h]

theorem windowEnds_of_running {s : State} {w start : Nat} (h : s.path.overdraw = some start)
    (hw : s.path.shedEnd = some w) : windowEnds s
      = if start + 125 * (cfg s).overdrawGrace ≤ max s.now w
        then tripPath { reach w s with path := { s.path with shedEnd := none } }
        else { reach w s with path := { s.path with shedEnd := none } } := by
  simp only [windowEnds, hw, reach_path, h, reach_now, cfg, reach_control, ms]

/-- Settles O59: the grace in force, and the trip it leads to. -/
theorem overdrawTrips : Obligations.OverdrawTrips := by
  intro dt start s p tripped hr hl
  have hl' : p.control.station ≠ .loading := by simpa [p] using hl
  have hcfg : cfg s = cfg p := by simp [p]
  have hpath : s.path = p.path := by simp [p]
  have htrip := exec_happens (i := .trip dt) rfl hr
  have hclose := exec_happens (i := .shedWindowClose dt) rfl hr
  rw [hpath, hcfg]
  refine ⟨fun h w hw => ?_, fun h => ⟨fun hw => ?_, fun w hw => ?_, fun w hw hle => ?_, fun w hw hlt => ?_⟩⟩
  · rw [hclose, windowEnds_of_idle h hw]
  · obtain ⟨h1, h2⟩ := settle_tripPath p (reach (tripTime start p) p) (by simpa using hl')
    rw [tripNow, h] at htrip
    refine ⟨_, htrip, h1, h2.trans ?_⟩
    simp only [reach_now, tripTime, hw]; rfl
  · obtain ⟨h1, h2⟩ := settle_tripPath p (reach (tripTime start p) p) (by simpa using hl')
    rw [tripNow, h] at htrip
    refine ⟨_, htrip, h1, h2.trans ?_⟩
    simp only [reach_now, tripTime, hw]; rfl
  · obtain ⟨h1, h2⟩ := settle_tripPath p { reach w p with path := { p.path with shedEnd := none } } (by simpa using hl')
    rw [windowEnds_of_running h hw, if_pos hle] at hclose
    exact ⟨_, hclose, h1, h2.trans (by simp)⟩
  · rw [windowEnds_of_running h hw, if_neg (Nat.not_le.mpr hlt)] at hclose
    exact hclose

end Sys2Proof.Machine
end

section
/-! SUPPORT. The watch of the rail and the ALERT it queues. -/

namespace Sys2Proof.Machine

section Rail

variable {rail : Nat} {s : State}

theorem readRail_low (hj : s.control.station = .joined) (hl : rail < (cfg s).alertThreshold) (ha : s.path.armed = true)
    (ht : s.path.railTimer = none) : readRail rail s
      = { s with path := { s.path with railSense := rail, railTimer := some s.now } } := by
  simp [readRail, hj, Nat.not_le.mpr hl, ha, ht]

theorem readRail_restored (hj : s.control.station = .joined) (hl : (cfg s).alertThreshold ≤ rail) : readRail rail s
    = { s with path := { s.path with railSense := rail, railTimer := none, armed := true } } := by
  simp [readRail, hj, hl]

/-- Queueing an ALERT touches the link alone. -/
theorem queueAlert_eq (rail : Nat) (s : State) : ∃ l, queueAlert rail s = { s with link := l } := by
  unfold queueAlert
  split
  · unfold preempt
    dsimp only
    split
    · split
      · exact ⟨_, rfl⟩
      · exact ⟨_, rfl⟩
    · exact ⟨_, rfl⟩
  · exact ⟨_, rfl⟩

theorem queueAlert_full (h : ¬ s.link.urgent.length < 4) : queueAlert rail s
    = { s with link := { s.link with counters := { s.link.counters with
        alertsDropped := min 65535 (s.link.counters.alertsDropped + 1) } } } :=
  if_neg h

/-- The normal frame in backoff gives way to an ALERT. -/
theorem queueAlert_preempts {c : Current} (h : s.link.urgent.length < 4) (hc : s.link.current = some c)
    (hb : c.phase = .backoff ∧ c.frame.isUrgent = false) : queueAlert rail s
      = { s with link := { s.link with
          urgent := s.link.urgent ++ [⟨0, .fixed (.alert rail), 0⟩], current := none, preempted := some c } } := by
  simp [queueAlert, urgentPlaces, h, preempt, hc, hb]

theorem queueAlert_waits (h : s.link.urgent.length < 4)
    (hb : ∀ c, s.link.current = some c → ¬ (c.phase = .backoff ∧ c.frame.isUrgent = false)) : queueAlert rail s
      = { s with link := { s.link with urgent := s.link.urgent ++ [⟨0, .fixed (.alert rail), 0⟩] } } := by
  unfold queueAlert preempt
  rw [if_pos (by exact h)]
  dsimp only
  split
  · rename_i c hc
    rw [if_neg fun hh => hb c hc ⟨hh.1, hh.2.1⟩]
  · rfl

theorem alertAllowed_iff : alertAllowed s = true
    ↔ ∀ l, s.path.lastAlert = some l → l + 125 * (cfg s).alertHoldoff ≤ s.now := by
  unfold alertAllowed
  cases s.path.lastAlert with
  | none => exact ⟨fun _ _ => nofun, fun _ => rfl⟩
  | some t => exact ⟨fun h l hl => by cases hl; exact of_decide_eq_true h, fun h => decide_eq_true (h t rfl)⟩

/-- The rail-low timer's end. -/
theorem brownoutNow_of_low {start : Nat} (ht : s.path.railTimer = some start) (hj : s.control.station = .joined)
    (hl : rail < (cfg s).alertThreshold) : brownoutNow rail s =
      let u := reach (start + 250) s
      let out : State := { u with path := { u.path with railTimer := none, armed := false, railSense := rail } }
      alertEffect (if alertAllowed out = true then queueAlert rail out else out) := by
  simp only [brownoutNow, ht]
  rw [if_pos ⟨hj, hl⟩]
  rfl

end Rail

/-- Settles O60: readings and the brownout, which queues its ALERT and has the effect of a consumed one. -/
theorem railIsWatched : Obligations.RailIsWatched := by
  intro dt rail s p read hr hj
  have hread : advance dt { s with path := { s.path with railSense := rail } } = read := by
    rw [advance_withPath]
    simp [read, p]
  have hjr : read.control.station = .joined := by simpa [read, p] using hj
  have hcr : cfg s = cfg read := by simp [read, cfg, p]
  refine ⟨fun h1 h2 h3 => ?_, fun h => ?_, fun start hstart hlow => ?_⟩
  · show (.next (happen false dt (readRail rail) { s with path := { s.path with railSense := rail } }) : Answer) = _
    rw [happen_of_not_held { s with path := { s.path with railSense := rail } } false dt _ hr, hread,
      readRail_low hjr (hcr ▸ h1) (by simpa [read, p] using h2) (by simpa [read, p] using h3)]
  · show (.next (happen false dt (readRail rail) { s with path := { s.path with railSense := rail } }) : Answer) = _
    rw [happen_of_not_held { s with path := { s.path with railSense := rail } } false dt _ hr, hread,
      readRail_restored hjr (hcr ▸ h)]
  · intro u out sent told
    have hexec := exec_happens (i := .brownout dt rail) rfl hr
    rw [brownoutNow_of_low (start := start) (by simpa using hstart) (by simpa using hj) (by simpa using hlow)] at hexec
    have hcu : cfg s = cfg out := by simp [out, cfg, u, p]
    have hall : (∀ l, s.path.lastAlert = some l → l + 125 * (cfg s).alertHoldoff ≤ u.now) ↔ alertAllowed out = true := by
      rw [alertAllowed_iff, hcu]
      simp [out, u, p]
    have hurgent : s.link.urgent = out.link.urgent := by simp [out, u, p]
    have hcurrent : s.link.current = out.link.current := by simp [out, u, p]
    have hcounters : s.link.counters = out.link.counters := by simp [out, u, p]
    have hsent : (if alertAllowed out = true then queueAlert rail out else out) = sent := by
      show _ = if _ then _ else _
      rw [hurgent, hcurrent, hcounters]
      by_cases ha : alertAllowed out = true
      · rw [if_pos ha, if_pos (hall.mpr ha)]
        by_cases hfull : out.link.urgent.length < 4
        · rw [if_pos hfull]
          cases hc : out.link.current with
          | none => exact queueAlert_waits hfull (by simp [hc])
          | some c =>
            dsimp only
            by_cases hb : c.phase = .backoff ∧ c.frame.isUrgent = false
            · rw [if_pos hb]
              exact queueAlert_preempts hfull hc hb
            · rw [if_neg hb]
              exact queueAlert_waits hfull (by simpa [hc] using hb)
        · rw [if_neg hfull]
          exact queueAlert_full hfull
      · rw [if_neg ha, if_neg fun h => ha (hall.mp h)]
    have hframe : ∃ l, sent = { out with link := l } := by
      rw [← hsent]
      split
      · exact queueAlert_eq rail out
      · exact ⟨out.link, rfl⟩
    have hexec' : exec (.brownout dt rail) s = .next (settle true p (alertEffect sent)) := by
      rw [hexec, ← hsent]
    obtain ⟨l, e⟩ := hframe
    have hengine : sent.engine = s.engine := by rw [e]; simp [out, u, p]
    have hcontrol : sent.control = s.control := by rw [e]; simp [out, u, p]
    have hcs : cfg sent = cfg s := by simp [cfg, hcontrol]
    have hflags : s.host.flags = sent.host.flags := by rw [e]; simp [out, u, p]
    have htold : toldAlert sent = told := by simp only [toldAlert, told, hflags]
    have hnow : sent.now = u.now := by rw [e]
    refine ⟨fun h => ?_, fun hto hrole hsh => ?_⟩
    · rw [hexec', alertEffect_of_not_shedding (by rw [hengine, hcs]; exact h), htold]
    · have hd := hto.distinct
      intro m
      have hmn : (withoutAsks (withTakesClosed told)).now = u.now := by
        rw [← htold, ← hnow]
        simp only [withoutAsks, withTakesClosed, withRecords]
        split <;> rfl
      rw [hexec', alertEffect_of_shedding (by rw [hengine]; exact hd.1) (by rw [hengine]; exact hd.2)
        (by rw [hcontrol, hj]; rfl) (by rw [hengine]; exact hrole) (by rw [hcs]; exact hsh), htold, hcs]
      dsimp only
      rw [hmn]

end Sys2Proof.Machine
end

section
/-! SUPPORT. When a DECLARE waits at the end of a happening: one that is due, or falls due by a pending change, gets a place or
finds the queue full. -/

namespace Sys2Proof.Machine

variable {s : State}

/-! ### A pending change stands -/

theorem noteChange_changePending (s : State) :
    (noteChange s).engine.changePending = (s.control.station.speaks || s.engine.changePending) := by
  unfold noteChange
  split
  · rename_i h; simp [h]
  · rename_i h; simp [h]

theorem putRecord_changePending (n : Record) (h : s.engine.changePending = true) :
    (putRecord n s).engine.changePending = true := by
  unfold putRecord
  split
  · exact h
  · dsimp only
    split <;> split <;> simp [noteChange_changePending, h]

theorem dropRecords_changePending (p : Record → Bool) (h : s.engine.changePending = true) :
    (dropRecords p s).engine.changePending = true := by
  unfold dropRecords
  split
  · simp [noteChange_changePending, h]
  · exact h

theorem removeRaise_changePending (r : Record) :
    (removeRaise r s).engine.changePending = s.engine.changePending := by
  unfold removeRaise
  split
  · obtain ⟨_, e⟩ := removeAsk_eq r.supplier s
    rw [e]
  · rfl

/-- A fold of steps that leave a pending change leaves it. -/
theorem foldl_changePending {g : State → Record → State}
    (hg : ∀ t r, t.engine.changePending = true → (g t r).engine.changePending = true) (rs : List Record)
    (h : s.engine.changePending = true) : (rs.foldl g s).engine.changePending = true := by
  induction rs generalizing s with
  | nil => exact h
  | cons r rs ih => exact ih (hg s r h)

theorem planRecalls_changePending (p : State) (h : s.engine.changePending = true) :
    (planRecalls p s).engine.changePending = true := by
  unfold planRecalls
  split
  · refine foldl_changePending (fun t r ht => ?_) _ h
    unfold planOne
    split
    · exact ht
    · exact putRecord_changePending _ ht
  · exact foldl_changePending (fun t r ht => putRecord_changePending _ ht) _ h
  · exact h

theorem trimExcess_changePending (h : s.engine.changePending = true) : (trimExcess s).engine.changePending = true := by
  unfold trimExcess
  split
  · refine foldl_changePending (fun t r ht => ?_) _ h
    unfold trimOne
    split
    · exact ht
    · dsimp only
      split
      · rw [closeTake, removeRaise_changePending]
        exact putRecord_changePending _ ht
      · exact putRecord_changePending _ ht
  · exact h

theorem placeNotices_changePending (h : s.engine.changePending = true) :
    (placeNotices s).engine.changePending = true := by
  refine foldl_changePending (fun t r ht => ?_) _ h
  unfold placeNotice
  split
  · exact ht
  · split
    · dsimp only
      split
      · exact dropRecords_changePending _ (by simpa using ht)
      · exact putRecord_changePending _ (by simpa using ht)
    · exact ht

/-! ### What stands in the normal queue stands -/

theorem prefix_enqueue (f : OutFrame) (s : State) : s.link.normal <+: (enqueue f s).link.normal := by
  unfold enqueue
  split
  · exact List.prefix_append _ _
  · exact List.prefix_rfl

theorem link_putRecord (n : Record) (s : State) : (putRecord n s).link = s.link := by
  unfold putRecord
  split
  · rfl
  · dsimp only
    split <;> split <;> simp

theorem link_dropRecords (p : Record → Bool) (s : State) : (dropRecords p s).link = s.link := by
  unfold dropRecords
  split <;> simp

theorem prefix_placeNotices (s : State) : s.link.normal <+: (placeNotices s).link.normal := by
  unfold placeNotices
  generalize s.engine.table = rs
  induction rs generalizing s with
  | nil => exact List.prefix_rfl
  | cons r rs ih =>
    refine List.IsPrefix.trans ?_ (ih (placeNotice s r))
    unfold placeNotice
    split
    · exact List.prefix_rfl
    · split
      · dsimp only
        split
        · rw [dropRecord, link_dropRecords]; exact prefix_enqueue _ s
        · rw [link_putRecord]; exact prefix_enqueue _ s
      · exact List.prefix_rfl

theorem prefix_requeueAsks (n : Nat) (s : State) : s.link.normal <+: (requeueAsks n s).link.normal := by
  induction n generalizing s with
  | zero => exact List.prefix_rfl
  | succ n ih =>
    unfold requeueAsks
    split
    · exact List.prefix_rfl
    · split
      · rename_i a _ _
        refine List.IsPrefix.trans ?_ (ih _)
        exact prefix_enqueue (askFrame a s.engine.nextRef) s
      · exact List.prefix_rfl

theorem prefix_startAsks (n : Nat) (s : State) : s.link.normal <+: (startAsks n s).link.normal := by
  induction n generalizing s with
  | zero => exact List.prefix_rfl
  | succ n ih =>
    unfold startAsks
    split
    · rename_i hm
      split
      · rename_i p _
        refine List.IsPrefix.trans ?_ (ih _)
        obtain ⟨_, e⟩ := startAsk_eq p hm
        rw [e]
        exact List.prefix_append _ _
      · exact List.prefix_rfl
    · exact List.prefix_rfl

theorem startAsks_declareDue (n : Nat) (s : State) : (startAsks n s).engine.declareDue = s.engine.declareDue := by
  induction n generalizing s with
  | zero => rfl
  | succ n ih =>
    unfold startAsks
    split
    · rename_i hm
      split
      · rename_i p _
        obtain ⟨_, e⟩ := startAsk_eq p hm
        rw [ih, e]
      · rfl
    · rfl

/-! ### A DECLARE on its way -/

/-- A DECLARE waits, or is due while the normal queue is full. -/
def DeclarePlaced (s : State) : Prop :=
  s.link.normal.any OutFrame.isDeclare = true ∨ (s.engine.declareDue = true ∧ 12 ≤ s.link.normal.length)

/-- A DECLARE is due, or a pending change has waited for its spacing with none in the link. -/
def DeclareComing (s : State) : Prop :=
  s.engine.declareDue = true ∨ (s.engine.changePending = true ∧ s.engine.finalDue = false ∧ declareInLink s = false
    ∧ spacingOver s = true)

theorem declareInLink_of_bargains {b : Bool} {c : Prop} {t : State} (h : Bargains b c s t) (hd : declareInLink s = false) :
    declareInLink t = false := by
  simp only [declareInLink, Bool.or_eq_false_iff, List.any_eq_false] at hd ⊢
  obtain ⟨⟨hn, hc⟩, hp⟩ := hd
  refine ⟨⟨fun f hf hfd => hn f (h.queue.mem_declare hf hfd) hfd, ?_⟩, ?_⟩
  · rw [h.current]; exact hc
  · rw [h.preempted]; exact hp

theorem DeclareComing.of_bargains {b : Bool} {c : Prop} {t : State} (h : DeclareComing s) (hb : Bargains b c s t)
    (hp : s.engine.changePending = true → t.engine.changePending = true) : DeclareComing t := by
  rcases h with h | ⟨h1, h2, h3, h4⟩
  · exact .inl (hb.declareDue.trans h)
  · refine .inr ⟨hp h1, hb.finalDue.trans h2, declareInLink_of_bargains hb h3, ?_⟩
    have hl : t.engine.lastInstant = s.engine.lastInstant := congrArg (fun x => x.engine.lastInstant) hb.frame
    rw [← h4, spacingOver, spacingOver, hl, hb.now]

theorem DeclarePlaced.of_prefix {t : State} (h : DeclarePlaced s) (hl : s.link.normal <+: t.link.normal)
    (hd : t.engine.declareDue = s.engine.declareDue) : DeclarePlaced t := by
  rcases h with h | ⟨h1, h2⟩
  · obtain ⟨f, hf, hfd⟩ := List.any_eq_true.mp h
    exact .inl (List.any_eq_true.mpr ⟨f, hl.subset hf, hfd⟩)
  · exact .inr ⟨hd.trans h1, h2.trans hl.length_le⟩

theorem any_takePlace {final : Bool} {l : List OutFrame} (h : l.any OutFrame.isDeclare = true) :
    (takePlace final l).any OutFrame.isDeclare = true := by
  induction l with
  | nil => cases h
  | cons f l ih =>
    unfold takePlace
    split
    · rfl
    · rename_i hf
      simp only [List.any_cons, Bool.or_eq_true] at h ⊢
      exact .inr (ih (h.resolve_left hf))

/-- A DECLARE that is due is placed where there is a place. -/
theorem placeDeclare_placed (h : s.link.normal.any OutFrame.isDeclare = true ∨ s.engine.declareDue = true) :
    DeclarePlaced (placeDeclare s) := by
  unfold placeDeclare
  split
  · rename_i hd
    split
    · rename_i ha
      exact .inl (any_takePlace ha)
    · split
      · exact .inl (by simp [OutFrame.isDeclare])
      · rename_i hr
        rw [Bool.not_eq_true, normalRoom, decide_eq_false_iff_not] at hr
        exact .inr ⟨hd, Nat.le_of_not_lt hr⟩
  · rename_i hd
    exact .inl (h.resolve_right hd)

theorem noteDeclared_cases (p s : State) : noteDeclared p s = s ∨ noteDeclared p s = noteChange s := by
  unfold noteDeclared
  split
  · exact .inl rfl
  · exact .inr rfl

theorem noteDeclared_link (p s : State) : (noteDeclared p s).link = s.link := by
  rcases noteDeclared_cases p s with e | e
  · rw [e]
  · rw [e, noteChange_link]

theorem DeclareComing.noteDeclared (h : DeclareComing s) (p : State) : DeclareComing (noteDeclared p s) := by
  rcases noteDeclared_cases p s with e | e
  · rwa [e]
  · rw [e, noteChange]
    split
    · exact h.imp id fun ⟨_, h2, h3, h4⟩ => ⟨rfl, h2, h3, h4⟩
    · exact h

theorem dueByChange_link (s : State) : (dueByChange s).link = s.link := by
  unfold dueByChange
  split <;> rfl

theorem DeclareComing.dueByChange (h : DeclareComing s) : (dueByChange s).engine.declareDue = true := by
  unfold Machine.dueByChange
  split
  · rfl
  · rename_i hn
    rcases h with h | ⟨h1, h2, h3, h4⟩
    · exact h
    · by_contra hd
      exact hn (by simp [h1, h2, h3, h4, hd])

/-- The builder's turn places a DECLARE on its way. -/
theorem builderTurn_placed (p : State) (h : DeclarePlaced s ∨ DeclareComing s) : DeclarePlaced (builderTurn p s) := by
  have coming (k : DeclareComing s) : DeclarePlaced (builderTurn p s) :=
    placeDeclare_placed (.inr (k.noteDeclared p).dueByChange)
  rcases h with (h | ⟨h, -⟩) | h
  · refine placeDeclare_placed (.inl ?_)
    rwa [dueByChange_link, noteDeclared_link]
  · exact coming (.inl h)
  · exact coming h

/-- The drain's end makes a DECLARE due or leaves the builder as it was. -/
theorem checkDrain_placed (h : DeclarePlaced s ∨ DeclareComing s) :
    DeclarePlaced (checkDrain s) ∨ DeclareComing (checkDrain s) := by
  have ends (x : Target) (u : Purpose) : DeclarePlaced (endDrain x u s) ∨ DeclareComing (endDrain x u s) := by
    unfold endDrain
    dsimp only
    split
    · obtain ⟨_, e, -⟩ := completeLong_eq
        (if (decide (x = Target.supplier) && supplyTestFails s) = true then ResultCode.refusedState else .done)
        { s with engine := { s.engine with role := if (decide (x = Target.supplier) && supplyTestFails s) = true then
          Role.idle else x.role } }
      rw [e]
      exact h
    · exact .inr (.inl rfl)
  unfold checkDrain
  split <;> (try split) <;> first | exact h | exact ends _ _

/-- A DECLARE on its way in JOINED or LEAVING waits after the happening, or is due with the queue full. -/
theorem DeclareComing.settle {m : State} (h : DeclareComing m) (hs : m.control.station.speaks = true) (b : Bool)
    (p : State) : DeclarePlaced (settle b p m) := by
  have hl := not_loading_of_speaks hs
  have h1 : DeclareComing (planRecalls p m) :=
    h.of_bargains (b := true) (c := True) ((Bargains.refl m).planRecalls p) (planRecalls_changePending p)
  have h2 : DeclareComing (trimExcess (planRecalls p m)) :=
    h1.of_bargains (b := true) (c := True) ((Bargains.refl _).trimExcess) trimExcess_changePending
  have h3 : DeclarePlaced (beforeNotices p m) ∨ DeclareComing (beforeNotices p m) := by
    unfold beforeNotices
    split
    · exact .inr h2
    · exact .inl (builderTurn_placed p (.inr h2))
  have hb : Bargains true True (beforeNotices p m) (placeNotices (beforeNotices p m)) := (Bargains.refl _).placeNotices
  have h4 : DeclarePlaced (placeNotices (beforeNotices p m)) ∨ DeclareComing (placeNotices (beforeNotices p m)) :=
    h3.imp (fun k => k.of_prefix (prefix_placeNotices _) hb.declareDue)
      (fun k => k.of_bargains hb placeNotices_changePending)
  have h5 := builderTurn_placed p (checkDrain_placed h4)
  rw [DeclarePlaced, settle_link hl, settle_engine hl, engineSettle_of_speaks hs]
  refine DeclarePlaced.of_prefix ?_ (prefix_startAsks askPlaces _) (startAsks_declareDue _ _)
  exact h5.of_prefix (prefix_requeueAsks askPlaces _)
    ((Bargains.refl (b := true) (c := True) _).requeueAsks askPlaces).declareDue

/-- Settles O57: by period a DECLARE is due, by change one falls due at the spacing's end. -/
theorem declareFallsDue : Obligations.DeclareFallsDue := by
  intro dt l s placed hr hi hl
  have hip : builderIdle (advance dt s) = true := by simpa using hi
  have hlp : (advance dt s).engine.lastInstant = some l := by simpa using hl
  have hs : s.control.station.speaks = true := by
    simp only [builderIdle, Bool.and_eq_true] at hi
    exact hi.1.1.1
  refine ⟨⟨_, exec_happens (i := .declarePeriodDue dt) rfl hr, ?_⟩,
    fun hp => ⟨_, exec_happens (i := .declareSpacingEnd dt) rfl hr, ?_⟩⟩
  · have e : periodPasses (advance dt s) = { reach (l + 1250 * (cfg s).period) (advance dt s) with
        engine := { s.engine with declareDue := true } } := by
      have ht : periodTime (cfg s).period = 1250 * (cfg s).period := by simp only [periodTime, ms]; omega
      simp [periodPasses, hl, hi, ht]
    rw [e]
    exact ⟨by simp, DeclareComing.settle (.inl rfl) (by simpa using hs) _ _⟩
  · have e : spacingEnds (advance dt s) = reach (l + 6250) (advance dt s) := by
      simp [spacingEnds, hl, hi, hp, declareSpacing, ms]
    rw [e]
    refine ⟨by simp, DeclareComing.settle (.inr ⟨by simpa using hp, ?_, ?_, ?_⟩) (by simpa using hs) _ _⟩
    · simp only [builderIdle, Bool.and_eq_true, Bool.not_eq_true'] at hi
      simpa using hi.1.1.2
    · simp only [builderIdle, Bool.and_eq_true, Bool.not_eq_true'] at hi
      simpa [declareInLink] using hi.2
    · simp only [spacingOver, reach_engine, advance_engine, hl, reach_now, decide_eq_true_eq]
      exact le_max_right _ _

end Sys2Proof.Machine
end

section
/-! SUPPORT. Entry to OFFLINE: what it tells the host, and what the end of its happening leaves. -/

namespace Sys2Proof.Machine

/-! ### The entries lost -/

/-- Losing a run of peers sets PEER_LOST where one of them has an entry. -/
theorem hasEvent_foldl_losePeer (l : List Nat) (s : State) :
    hasEvent .peerLost (l.foldl (fun x a => losePeer a x) s) = (hasEvent .peerLost s || l.any (knownPeer s)) := by
  induction l generalizing s with
  | nil => simp
  | cons a l ih =>
    rw [List.foldl_cons, ih, hasEvent_losePeer a s (by decide), List.any_cons]
    cases h : knownPeer s a with
    | true => simp
    | false =>
      have e : losePeer a s = s := by simp [losePeer, h]
      rw [e]
      simp

/-- Every entry of a table is known. -/
theorem any_knownPeer (s : State) : (s.peers.map Peer.addr).any (knownPeer s) = decide (s.peers ≠ []) := by
  cases h : s.peers with
  | nil => rfl
  | cons q qs => simp [knownPeer, h]

/-! ### Entry to OFFLINE -/

/-- The state in which entry to OFFLINE loses its entries. -/
def beforeLosses (s : State) : State :=
  clearBuilder (stopRailWatch (clearLink { s with
    control := { s.control with station := .offline, listenEnd := none }
    path := { s.path with state := if s.path.state = .tripped then .opened else s.path.state } }))

/-- The state in which entry to OFFLINE completes a LEAVE. -/
def afterLosses (s : State) : State := (s.peers.map Peer.addr).foldl (fun x a => losePeer a x) (beforeLosses s)

theorem afterLosses_host (s : State) : ∃ f, (afterLosses s).host = { s.host with flags := s.host.flags ||| f } := by
  obtain ⟨_, _, _, f, _, e⟩ := foldl_losePeer_eq (s.peers.map Peer.addr) (beforeLosses s)
  exact ⟨f, by rw [afterLosses, e]; rfl⟩

theorem enterOffline_of_leave {s : State} {tag : Byte} (h : s.host.long = some ⟨.leave, tag⟩) :
    enterOffline s = completeLong .done (afterLosses s) := by
  obtain ⟨f, e⟩ := afterLosses_host s
  have hl : (afterLosses s).host.long = some ⟨.leave, tag⟩ := by rw [e]; exact h
  have : enterOffline s = match (afterLosses s).host.long with
    | some ⟨.leave, _⟩ => completeLong .done (afterLosses s)
    | _ => afterLosses s := rfl
  rw [this, hl]

theorem enterOffline_of_none {s : State} (h : s.host.long = none) : enterOffline s = afterLosses s := by
  obtain ⟨f, e⟩ := afterLosses_host s
  have hl : (afterLosses s).host.long = none := by rw [e]; exact h
  have : enterOffline s = match (afterLosses s).host.long with
    | some ⟨.leave, _⟩ => completeLong .done (afterLosses s)
    | _ => afterLosses s := rfl
  rw [this, hl]

theorem hasEvent_enterOffline (s : State) :
    hasEvent .peerLost (enterOffline s) = (hasEvent .peerLost s || decide (s.peers ≠ [])) := by
  have h1 : hasEvent .peerLost (afterLosses s) = (hasEvent .peerLost s || decide (s.peers ≠ [])) := by
    rw [afterLosses, hasEvent_foldl_losePeer, ← any_knownPeer]
    rfl
  rw [← h1]
  unfold enterOffline
  dsimp only
  split
  · exact hasEvent_completeLong _ _ (by decide)
  · rfl

/-- A LEAVE completes with the entry to OFFLINE. -/
theorem enterOffline_host_of_leave {s : State} {tag : Byte} (h : s.host.long = some ⟨.leave, tag⟩) :
    (enterOffline s).host.long = none
      ∧ (enterOffline s).host.results = s.host.results ++ [⟨tag, 4, .done, []⟩] := by
  obtain ⟨f, e⟩ := afterLosses_host s
  rw [enterOffline_of_leave h, completeLong_long, completeLong_results, longResult, e, h]
  exact ⟨rfl, rfl⟩

/-! ### The end of the happening -/

/-- The two states agree on all that entry to OFFLINE is stated by. -/
def SameStation (s u : State) : Prop :=
  u.control.station = s.control.station ∧ u.control.config = s.control.config
    ∧ u.control.unpowered = s.control.unpowered ∧ u.peers = s.peers ∧ u.path.state = s.path.state
    ∧ u.engine.demand = s.engine.demand ∧ u.engine.capacity = s.engine.capacity
    ∧ u.engine.nextContract = s.engine.nextContract ∧ u.engine.nextRequest = s.engine.nextRequest
    ∧ hasEvent .peerLost u = hasEvent .peerLost s

/-- A happening whose effect enters OFFLINE, and then touches the host alone, has entered it at its end. -/
theorem entersOffline_settle {b : Bool} {p s u m : State} {h : HostPort} (hp : p.control.station = s.control.station)
    (hu : SameStation s u) (hm : m = { enterOffline u with host := h })
    (he : hasEvent .peerLost m = hasEvent .peerLost (enterOffline u)) : EntersOffline s (settle b p m) := by
  obtain ⟨hst, hcfg, hunp, hpeers, hpath, hdem, hcap, hnc, hnr, hev⟩ := hu
  obtain ⟨t, k, h0, e0, -, -, -, -⟩ := enterOffline_spec u
  have hms : m.control.station = .offline := by rw [hm, e0]
  have hs : m.control.station.speaks = false := by rw [hms]; rfl
  have hl : m.control.station ≠ .loading := by rw [hms]; decide
  have hE : engineSettle p m = m := engineSettle_of_silent hs
  obtain ⟨i, x, e⟩ := settle_of_silent (b := b) (p := p) hs hl
  have hcontrol : m.control = { u.control with station := .offline, listenEnd := none } := by rw [hm, e0]
  have hlim : limitOf m = if s.control.unpowered = true then (cfg s).startAllowance else 0 := by
    have hc : cfg m = cfg s := by rw [cfg, cfg, hcontrol, ← hcfg]
    rw [limitOf, hms]
    simp only [allowance, hc]
    rw [hcontrol, hunp]
  have hstate : m.path.state = if u.path.state = .tripped then .opened else u.path.state := by rw [hm, e0]
  have hopen : m.path.state ≠ .tripped := by
    rw [hstate]
    split
    · decide
    · assumption
  have hengine : (settle b p m).engine = m.engine := by rw [settle_engine hl, hE]
  refine ⟨by rw [settle_control, hms], by rw [settle_control, hcontrol], fun hne => ?_, ?_, ?_, ?_, ?_, fun h0 => ?_,
    fun ht h0 => ?_, ?_, ?_, ?_, ?_, ?_, ?_⟩
  · refine hasEvent_stateChanged_of_silent hs hl ?_
    rw [hms, hp]
    exact hne
  · rw [settle_peers, hm, e0]
  · rw [hasEvent_settle _ _ _ (by decide), he, hasEvent_enterOffline, hev, hpeers]
  · rw [settle_link hl, hE, hm, e0]
  · rw [settle_path_limit hl, hE, hlim]
  · rw [settle_path_state hl, hE]
    exact (movePath_of_zero m hopen (hlim.trans h0)).1
  · rw [settle_path_state hl, hE]
    refine (movePath_of_opened m ?_ (hlim ▸ h0)).1
    rw [hstate, hpath, if_pos ht]
  · rw [settle_control, hcontrol]; exact hcfg
  · rw [settle_control, hcontrol]; exact hunp
  · rw [hengine, hm, e0]; exact hdem
  · rw [hengine, hm, e0]; exact hcap
  · rw [hengine, hm, e0]; exact hnc
  · rw [hengine, hm, e0]; exact hnr

end Sys2Proof.Machine
end

section
/-! SUPPORT. LEAVE, REJOIN and the SET_ROLE that drains: the requests that become the long request. -/

namespace Sys2Proof.Machine

/-! ### The Host Port aside -/

/-- The state with another Request Queue, reserved places and long request. -/
def requesting (rest : List Request) (n : Nat) (l : Option LongRequest) (s : State) : State :=
  { s with host := { s.host with requests := rest, reserved := n, long := l } }

theorem withTakesClosed_requesting (rest : List Request) (n : Nat) (l : Option LongRequest) (s : State) :
    withTakesClosed (withoutAsks (requesting rest n l s)) = requesting rest n l (withTakesClosed (withoutAsks s)) := by
  have e : (withoutAsks (requesting rest n l s)).engine.table = s.engine.table := rfl
  have e' : (withoutAsks s).engine.table = s.engine.table := rfl
  unfold withTakesClosed withRecords
  rw [e, e']
  split <;> rfl

theorem withSuppliesRecalled_requesting (rest : List Request) (n : Nat) (l : Option LongRequest) (s : State) :
    withSuppliesRecalled (requesting rest n l s) = requesting rest n l (withSuppliesRecalled s) := by
  have e : (requesting rest n l s).engine.table = s.engine.table := rfl
  unfold withSuppliesRecalled withRecords
  rw [e]
  split <;> rfl

section Drains

variable {q : Request} {rest : List Request} {s : State} {x : Target} {u : Purpose}

/-- A drain leaving TAKER begins, in ordered tables. -/
theorem beginDrainTake_eq (h : TablesOrdered s) (hs : s.control.station.speaks = true) : beginDrainTake x u s
    = { withTakesClosed (withoutAsks s) with
        engine := { (withTakesClosed (withoutAsks s)).engine with role := .drainingTake x u } } := by
  rw [beginDrainTake, closeAllTake_removeAllAsks h.distinct.1 h.distinct.2 hs]

/-- A drain leaving SUPPLIER begins, in ordered tables. -/
theorem beginDrainSupply_eq (h : TablesOrdered s) : beginDrainSupply x u s
    = { withSuppliesRecalled s with
        engine := { (withSuppliesRecalled s).engine with role := .drainingSupply x u } } := by
  rw [beginDrainSupply, recallAll_eq h.distinct.1]

/-- The long request in progress completes as another takes its place. -/
theorem completeLong_of_some {c : ResultCode} {l : LongRequest} (h : s.host.long = some l) : completeLong c s
    = { s with host := { s.host with
        long := none, results := s.host.results ++ [⟨l.tag, l.kind.byte, c, []⟩], reserved := s.host.reserved - 1
        flags := s.host.flags ||| Event.resultReady.bit } } := by
  rw [completeLong, h]
  rfl

theorem changeRole_drains_taker (h : s.engine.role = .taker) (hx : x ≠ .taker)
    (hf : x = .supplier → supplyTestFails s = false) :
    changeRole q x s = becomeLong .setRole q (beginDrainTake x (.setRole q.tag) s) := by
  unfold changeRole
  rw [h]
  cases x with
  | idle => rfl
  | taker => exact absurd rfl hx
  | supplier => exact if_neg (by simp [hf rfl])

theorem changeRole_drains_supplier (h : s.engine.role = .supplier) (hx : x ≠ .supplier) :
    changeRole q x s = becomeLong .setRole q (beginDrainSupply x (.setRole q.tag) s) := by
  unfold changeRole
  rw [h]
  cases x with
  | idle => rfl
  | taker => rfl
  | supplier => exact absurd rfl hx

theorem changeRole_overtakes {y : Target} {left : Target} {again : Target → Purpose → Role}
    (ha : (left = .taker ∧ again = .drainingTake) ∨ (left = .supplier ∧ again = .drainingSupply))
    (h : s.engine.role = again y u) : changeRole q x s = overtakeDrain q x left again s := by
  unfold changeRole
  rcases ha with ⟨rfl, rfl⟩ | ⟨rfl, rfl⟩ <;> rw [h]

end Drains

/-! ### LEAVE and REJOIN -/

/-- The order of the tables does not depend on link, path, host, clock or station state. -/
theorem TablesOrdered.of_same {s t : State} (h : TablesOrdered s) (hc : t.control.config = s.control.config)
    (he : t.engine = s.engine) (hp : t.peers = s.peers) : TablesOrdered t := by
  have ho : ownAddress t = ownAddress s := by simp [ownAddress, cfg, hc]
  simp only [TablesOrdered, PeersOrdered, reservedPlaces, takeWith, he, hp, ho] at h ⊢
  exact h

theorem judge_leave_joined {q : Request} {rest : List Request} {s : State} (h : Taking 4 q rest s)
    (hj : s.control.station = .joined) (dt : Nat) :
    judge q (reservedFor rest (advance dt s)) = beginLeaving q (reservedFor rest (advance dt s)) := by
  have hst : (reservedFor rest (advance dt s)).control.station = .joined := (advance_control dt s) ▸ hj
  rw [judge_leave h.2.2.2.1, takeLeave, hst]

/-- Settles O32: each LEAVE by the role it finds, REJOIN, and the LEAVE that abandons it. -/
theorem leaveAndRejoin : Obligations.LeaveAndRejoin := by
  intro dt q rest s p left
  have hrole : p.engine.role = s.engine.role := by simp [p]
  have hhost : p.host = s.host := by simp [p]
  let t : State := stopRailWatch { reservedFor rest p with control := { p.control with station := .leaving } }
  have hleft : left = becomeLong .leave q t := by simp only [left, t, ← hhost]; rfl
  have hleft' : left = requesting rest (s.host.reserved + 1) (some ⟨.leave, q.tag⟩) t := by
    rw [hleft, ← hhost]; rfl
  have hts : t.control.station.speaks = true := rfl
  have htables (h : TablesOrdered s) : TablesOrdered t := h.of_same (by simp [t, p, reservedFor, stopRailWatch])
    (by simp [t, p, reservedFor, stopRailWatch]) (by simp [t, p, reservedFor, stopRailWatch])
  have htrole : t.engine.role = s.engine.role := hrole
  have hexec (h : Taking 4 q rest s) (hj : s.control.station = .joined) :
      exec (.leave dt) s = .next (settle false p (beginLeaving q (reservedFor rest p))) := by
    rw [exec_taking (i := .leave dt) h rfl rfl, judge_leave_joined h hj]
  have hleaving : beginLeaving q (reservedFor rest p) = match t.engine.role with
      | .idle => becomeLong .leave q (dueFinal t)
      | .taker => becomeLong .leave q (beginDrainTake .idle .leaving t)
      | .supplier => becomeLong .leave q (beginDrainSupply .idle .leaving t)
      | .drainingTake _ _ =>
        becomeLong .leave q (completeLong .aborted { t with engine.role := .drainingTake .idle .leaving })
      | .drainingSupply _ _ =>
        becomeLong .leave q (completeLong .aborted { t with engine.role := .drainingSupply .idle .leaving }) := rfl
  refine ⟨fun h hj hr => ?_, fun ho h hj hr => ?_, fun ho h hj hr => ?_, fun y u l again h hj ha hr hl => ?_,
    fun h hst => ?_, fun tag h hst hl => ?_⟩
  · rw [hexec h hj, hleaving, htrole, hr, hleft]
    rfl
  · intro m
    have hm : m = requesting rest (s.host.reserved + 1) (some ⟨.leave, q.tag⟩) (withTakesClosed (withoutAsks t)) := by
      simp only [m, hleft', withTakesClosed_requesting]
    have hx : becomeLong .leave q (beginDrainTake .idle .leaving t)
        = { m with engine := { m.engine with role := .drainingTake .idle .leaving } } := by
      have hself : withTakesClosed (withoutAsks t)
          = requesting rest (p.host.reserved + 1) t.host.long (withTakesClosed (withoutAsks t)) :=
        withTakesClosed_requesting rest (p.host.reserved + 1) t.host.long t
      rw [beginDrainTake_eq (htables ho) hts, hm, ← hhost]
      conv_lhs => rw [hself]
      rfl
    rw [hexec h hj, hleaving, htrole, hr, ← hx]
  · intro m
    have hm : m = requesting rest (s.host.reserved + 1) (some ⟨.leave, q.tag⟩) (withSuppliesRecalled t) := by
      simp only [m, hleft', withSuppliesRecalled_requesting]
    have hx : becomeLong .leave q (beginDrainSupply .idle .leaving t)
        = { m with engine := { m.engine with role := .drainingSupply .idle .leaving } } := by
      have hself : withSuppliesRecalled t
          = requesting rest (p.host.reserved + 1) t.host.long (withSuppliesRecalled t) :=
        withSuppliesRecalled_requesting rest (p.host.reserved + 1) t.host.long t
      rw [beginDrainSupply_eq (htables ho), hm, ← hhost]
      conv_lhs => rw [hself]
      rfl
    rw [hexec h hj, hleaving, htrole, hr, ← hx]
  · have hlt : t.host.long = some l := by rw [← hl, ← hhost]; rfl
    have hend (r : Role) : becomeLong .leave q (completeLong .aborted { t with engine := { t.engine with role := r } })
        = { left with
            engine := { p.engine with role := r }
            host := { left.host with
              reserved := s.host.reserved
              results := s.host.results ++ [⟨l.tag, l.kind.byte, .aborted, []⟩]
              flags := s.host.flags ||| Event.resultReady.bit } } := by
      rw [completeLong_of_some (s := { t with engine := { t.engine with role := r } }) hlt, hleft, ← hhost]
      rfl
    rw [hexec h hj, hleaving, htrole, hr]
    rcases ha with rfl | rfl <;> rw [← hend]
  · rw [exec_taking (i := .rejoin dt) h rfl rfl, judge_rejoin h.2.2.2.1, takeRejoin,
      if_pos (by exact (advance_control dt s) ▸ hst), ← hhost, ← cfg_advance dt s]
    rfl
  · have hst' : (reservedFor rest p).control.station = .listening := by simpa [reservedFor, p] using hst
    have hlp : (reservedFor rest p).host.long = some ⟨.rejoin, tag⟩ := by simpa [reservedFor, p] using hl
    have hj : judge q (reservedFor rest p)
        = finish q .done (enterOffline (completeLong .aborted (reservedFor rest p))) := by
      rw [judge_leave h.2.2.2.1, takeLeave, hst']
      exact if_pos (by rw [rejoining, hlp]; rfl)
    have hc := completeLong_of_some (c := .aborted) hlp
    generalize hu : completeLong .aborted (reservedFor rest p) = u at hc hj
    have hun : u.host.long = none := by rw [hc]
    obtain ⟨f, hf⟩ := afterLosses_host u
    have hmo : enterOffline u = afterLosses u := enterOffline_of_none hun
    have hsame : SameStation s u := by
      have hevent : hasEvent .peerLost u = hasEvent .peerLost s := by
        rw [← hu, hasEvent_completeLong _ _ (by decide)]
        exact hasEvent_congr (by simp [reservedFor, p]) _
      have hpast : u.control = s.control ∧ u.peers = s.peers ∧ u.path = s.path ∧ u.engine = s.engine := by
        rw [hc]
        simp [reservedFor, p]
      obtain ⟨h1, h2, h3, h4⟩ := hpast
      exact ⟨by rw [h1], by rw [h1], by rw [h1], h2, by rw [h3], by rw [h4], by rw [h4], by rw [h4], by rw [h4], hevent⟩
    have hms : (finish q .done (enterOffline u)).control.station = .offline := by
      obtain ⟨_, _, _, e, -⟩ := enterOffline_spec u
      rw [e]; rfl
    have hsilent : (finish q .done (enterOffline u)).control.station.speaks = false := by rw [hms]; rfl
    have hload : (finish q .done (enterOffline u)).control.station ≠ .loading := by rw [hms]; decide
    obtain ⟨i, x, e⟩ := settle_of_silent (b := false) (p := p) hsilent hload
    refine ⟨_, (exec_taking (i := .leave dt) h rfl rfl).trans (by rw [hj]), ?_, ?_, ?_, ?_, ?_⟩
    · refine entersOffline_settle (u := u) (by simp) hsame rfl ?_
      rw [finish, complete, hasEvent_setEvent, decide_eq_false (by decide), Bool.or_false]
      rfl
    · rw [e]
      show (finish q .done (enterOffline u)).host.long = none
      rw [hmo]
      show (afterLosses u).host.long = none
      rw [hf, hun]
    · rw [e]
      show (enterOffline u).host.requests = rest
      rw [hmo, hf, hc]
      rfl
    · rw [e]
      obtain ⟨_, _, _, e', -⟩ := enterOffline_spec u
      show (enterOffline u).link.counters = _
      rw [e', hc]
      simp [reservedFor, p]
    · rw [e]
      show (enterOffline u).host.results ++ [⟨q.tag, q.kind, .done, []⟩] = _
      rw [hmo, hf, hc]
      simp [reservedFor, p]
      rfl

end Sys2Proof.Machine
end

section
/-! SUPPORT. The asks that the end of a happening queues, and the end of a drain. -/

namespace Sys2Proof.Machine

/-! ### Asks queued: what they leave, and their frames behind the normal queue -/

/-- The frame carries an ASK. -/
def OutFrame.IsAsk (f : OutFrame) : Prop := ∃ rid amount minimum id, f.body = .fixed (.ask rid amount minimum id)

theorem isAsk_askFrame (a : Ask) (n : Nat) : (askFrame a n).IsAsk := ⟨_, _, _, _, rfl⟩

theorem OutFrame.IsAsk.isDeclare {f : OutFrame} (h : f.IsAsk) : f.isDeclare = false := by
  obtain ⟨_, _, _, _, e⟩ := h
  simp [OutFrame.isDeclare, e]

theorem OutFrame.IsAsk.isFinal {f : OutFrame} (h : f.IsAsk) : f.isFinal = false := by
  obtain ⟨_, _, _, _, e⟩ := h
  simp [OutFrame.isFinal, e]

theorem OutFrame.IsAsk.isNotice {f : OutFrame} (h : f.IsAsk) : f.isNotice = false := by
  obtain ⟨_, _, _, _, e⟩ := h
  simp [OutFrame.isNotice, e]

/-- The normal queue m is l with ASK frames behind it. -/
def AsksBehind (l m : List OutFrame) : Prop := ∃ more, m = l ++ more ∧ ∀ f ∈ more, f.IsAsk

theorem AsksBehind.refl (l : List OutFrame) : AsksBehind l l := ⟨[], by simp, nofun⟩

theorem AsksBehind.trans {l m n : List OutFrame} (h : AsksBehind l m) (k : AsksBehind m n) : AsksBehind l n := by
  obtain ⟨x, rfl, hx⟩ := h
  obtain ⟨y, rfl, hy⟩ := k
  exact ⟨x ++ y, by simp, fun f hf => (List.mem_append.mp hf).elim (hx f) (hy f)⟩

theorem asksBehind_enqueue (a : Ask) (n : Nat) (s : State) :
    AsksBehind s.link.normal (enqueue (askFrame a n) s).link.normal := by
  unfold enqueue
  split
  · exact ⟨[askFrame a n], rfl, fun f hf => List.mem_singleton.mp hf ▸ isAsk_askFrame a n⟩
  · exact .refl _

theorem asksBehind_requeueAsks (n : Nat) (s : State) : AsksBehind s.link.normal (requeueAsks n s).link.normal := by
  induction n generalizing s with
  | zero => exact .refl _
  | succ n ih =>
    unfold requeueAsks
    split
    · exact .refl _
    · split
      · rename_i a _ _
        refine AsksBehind.trans ?_ (ih _)
        exact asksBehind_enqueue a s.engine.nextRef s
      · exact .refl _

theorem asksBehind_startAsks (n : Nat) (s : State) : AsksBehind s.link.normal (startAsks n s).link.normal := by
  induction n generalizing s with
  | zero => exact .refl _
  | succ n ih =>
    unfold startAsks
    split
    · split
      · rename_i p _
        refine AsksBehind.trans ?_ (ih _)
        exact asksBehind_enqueue (newAsk p s) s.engine.nextRef s
      · exact .refl _
    · exact .refl _

/-- What no ask touches: the role, the builder's marks and the Host Port. -/
def AskFrameOf (s t : State) : Prop :=
  t.engine.role = s.engine.role ∧ t.engine.finalDue = s.engine.finalDue ∧ t.engine.declareDue = s.engine.declareDue
    ∧ t.engine.changePending = s.engine.changePending ∧ t.host = s.host

theorem AskFrameOf.trans {s t u : State} (h : AskFrameOf s t) (k : AskFrameOf t u) : AskFrameOf s u := by
  obtain ⟨h1, h2, h3, h4, h5⟩ := h
  obtain ⟨k1, k2, k3, k4, k5⟩ := k
  exact ⟨k1.trans h1, k2.trans h2, k3.trans h3, k4.trans h4, k5.trans h5⟩

theorem askFrameOf_enqueue (f : OutFrame) (s : State) : AskFrameOf s (enqueue f s) := by
  unfold enqueue
  split <;> exact ⟨rfl, rfl, rfl, rfl, rfl⟩

theorem askFrameOf_requeueAsks (n : Nat) (s : State) : AskFrameOf s (requeueAsks n s) := by
  induction n generalizing s with
  | zero => exact ⟨rfl, rfl, rfl, rfl, rfl⟩
  | succ n ih =>
    unfold requeueAsks
    split
    · exact ⟨rfl, rfl, rfl, rfl, rfl⟩
    · split
      · rename_i a _ _
        refine AskFrameOf.trans ?_ (ih _)
        exact askFrameOf_enqueue (askFrame a s.engine.nextRef) s
      · exact ⟨rfl, rfl, rfl, rfl, rfl⟩

theorem askFrameOf_startAsks (n : Nat) (s : State) : AskFrameOf s (startAsks n s) := by
  induction n generalizing s with
  | zero => exact ⟨rfl, rfl, rfl, rfl, rfl⟩
  | succ n ih =>
    unfold startAsks
    split
    · split
      · rename_i p _
        refine AskFrameOf.trans ?_ (ih _)
        exact askFrameOf_enqueue (askFrame (newAsk p s) s.engine.nextRef) s
      · exact ⟨rfl, rfl, rfl, rfl, rfl⟩
    · exact ⟨rfl, rfl, rfl, rfl, rfl⟩

/-- The state in which the end of a happening queues asks. -/
def beforeAsks (p m : State) : State := builderTurn p (checkDrain (placeNotices (beforeNotices p m)))

theorem engineSettle_asks {p m : State} (h : m.control.station.speaks = true) :
    engineSettle p m = startAsks askPlaces (requeueAsks askPlaces (beforeAsks p m)) := engineSettle_of_speaks h

theorem askFrameOf_engineSettle {p m : State} (h : m.control.station.speaks = true) :
    AskFrameOf (beforeAsks p m) (engineSettle p m) := by
  rw [engineSettle_asks h]
  exact (askFrameOf_requeueAsks _ _).trans (askFrameOf_startAsks _ _)

theorem asksBehind_engineSettle {p m : State} (h : m.control.station.speaks = true) :
    AsksBehind (beforeAsks p m).link.normal (engineSettle p m).link.normal := by
  rw [engineSettle_asks h]
  exact (asksBehind_requeueAsks _ _).trans (asksBehind_startAsks _ _)

/-! ### The builder's turn and a DECLARE that waits -/

/-- The place of a waiting DECLARE is taken. -/
theorem takePlace_at {before after : List OutFrame} {d : OutFrame} (final : Bool)
    (hb : ∀ g ∈ before, g.isDeclare = false) (hd : d.isDeclare = true) :
    takePlace final (before ++ d :: after) = before ++ ⟨0, .declare final, 0⟩ :: after := by
  induction before with
  | nil => simp [takePlace, hd]
  | cons f before ih =>
    have hf : f.isDeclare = false := hb f List.mem_cons_self
    simp [takePlace, hf, ih fun g hg => hb g (List.mem_cons_of_mem f hg)]

theorem builderTurn_frame (p s : State) : (builderTurn p s).engine.role = s.engine.role
    ∧ (builderTurn p s).engine.finalDue = s.engine.finalDue ∧ (builderTurn p s).host = s.host := by
  obtain ⟨_, _, _, e, -⟩ := builderTurn_eq p s
  rw [e]
  exact ⟨rfl, rfl, rfl⟩

/-- A due DECLARE takes the place of the one that waits. -/
theorem placeDeclare_over {s : State} (hd : s.engine.declareDue = true) (h : s.link.normal.any OutFrame.isDeclare = true) :
    placeDeclare s = { s with
      engine := { s.engine with declareDue := false }
      link := { s.link with normal := takePlace s.engine.finalDue s.link.normal } } := by
  simp only [placeDeclare, hd, h, ↓reduceIte]

/-- A due DECLARE goes to the tail. -/
theorem placeDeclare_tail {s : State} (hd : s.engine.declareDue = true)
    (h : s.link.normal.any OutFrame.isDeclare = false) (hr : normalRoom s = true) : placeDeclare s = { s with
      engine := { s.engine with declareDue := false }
      link := { s.link with normal := s.link.normal ++ [⟨0, .declare s.engine.finalDue, 0⟩] } } := by
  simp only [placeDeclare, hd, h, hr, ↓reduceIte, Bool.false_eq_true]

/-- A due DECLARE finds the queue full. -/
theorem placeDeclare_full {s : State} (h : s.link.normal.any OutFrame.isDeclare = false) (hr : normalRoom s = false) :
    placeDeclare s = s := by
  simp only [placeDeclare, h, hr, ↓reduceIte, Bool.false_eq_true, ite_self]

/-- Nothing falls due once the final DECLARE is due. -/
theorem builderTurn_of_finalDue (p : State) {s : State} (hf : s.engine.finalDue = true) :
    ∃ c, builderTurn p s = placeDeclare { s with engine := { s.engine with changePending := c } } := by
  have hdue (t : State) (ht : t.engine.finalDue = true) : dueByChange t = t := by simp [dueByChange, ht]
  unfold builderTurn
  rcases noteDeclared_cases p s with e | e
  · rw [e, hdue _ hf]
    exact ⟨s.engine.changePending, rfl⟩
  · rw [e, noteChange]
    split
    · exact ⟨true, congrArg placeDeclare (hdue _ hf)⟩
    · exact ⟨s.engine.changePending, congrArg placeDeclare (hdue _ hf)⟩

/-- With the final DECLARE due the builder places it: in a waiting DECLARE's place, at the tail, or not yet. -/
theorem builderTurn_final (p : State) {s : State} (hd : s.engine.declareDue = true) (hf : s.engine.finalDue = true) :
    (s.link.normal.any OutFrame.isDeclare = true → (builderTurn p s).link.normal = takePlace true s.link.normal)
      ∧ (s.link.normal.any OutFrame.isDeclare = false → normalRoom s = true →
          (builderTurn p s).link.normal = s.link.normal ++ [⟨0, .declare true, 0⟩])
      ∧ (s.link.normal.any OutFrame.isDeclare = false → normalRoom s = false →
          (builderTurn p s).link.normal = s.link.normal ∧ (builderTurn p s).engine.declareDue = true) := by
  obtain ⟨c, e⟩ := builderTurn_of_finalDue p hf
  rw [e]
  refine ⟨fun h => ?_, fun h hr => ?_, fun h hr => ?_⟩
  · rw [placeDeclare_over (by exact hd) (by exact h), hf]
  · rw [placeDeclare_tail (by exact hd) (by exact h) (by exact hr), hf]
  · rw [placeDeclare_full (by exact h) (by exact hr)]
    exact ⟨rfl, hd⟩

end Sys2Proof.Machine
end

section
/-! SUPPORT. SET_ROLE that drains, and the drain's end in the happening that leaves no record of its side. -/

namespace Sys2Proof.Machine

/-! ### What the end of a drain reads -/

/-- Two states in which the end of a drain has the same meaning, but for the table and the link. -/
def SameDrain (s t : State) : Prop :=
  t.control = s.control ∧ t.path = s.path ∧ t.engine.role = s.engine.role ∧ t.engine.supply = s.engine.supply
    ∧ t.engine.finalDue = s.engine.finalDue ∧ t.host.long = s.host.long ∧ t.host.results = s.host.results

theorem SameDrain.trans {s t u : State} (h : SameDrain s t) (k : SameDrain t u) : SameDrain s u := by
  obtain ⟨h1, h2, h3, h4, h5, h6, h7⟩ := h
  obtain ⟨k1, k2, k3, k4, k5, k6, k7⟩ := k
  exact ⟨k1.trans h1, k2.trans h2, k3.trans h3, k4.trans h4, k5.trans h5, k6.trans h6, k7.trans h7⟩

theorem sameDrain_of_bargains {b : Bool} {c : Prop} {s t : State} (h : Bargains b c s t) : SameDrain s t :=
  ⟨h.control, h.path, h.role, h.supply, h.finalDue, h.long, h.results⟩

theorem sameDrain_builderTurn (p s : State) : SameDrain s (builderTurn p s) := by
  obtain ⟨_, _, _, e, -⟩ := builderTurn_eq p s
  rw [e]
  exact ⟨rfl, rfl, rfl, rfl, rfl, rfl, rfl⟩

theorem sameDrain_beforeNotices (p m : State) : SameDrain m (beforeNotices p m) := by
  have h : SameDrain m (trimExcess (planRecalls p m)) :=
    sameDrain_of_bargains (b := true) (c := True) (((Bargains.refl m).planRecalls p).trimExcess)
  unfold beforeNotices
  split
  · exact h
  · exact h.trans (sameDrain_builderTurn p _)

theorem sameDrain_placeNotices (s : State) : SameDrain s (placeNotices s) :=
  sameDrain_of_bargains (b := true) (c := True) (Bargains.refl s).placeNotices

theorem SameDrain.supplyTestFails {s t : State} (h : SameDrain s t) : supplyTestFails t = supplyTestFails s := by
  obtain ⟨h1, h2, -, h4, -⟩ := h
  simp [Machine.supplyTestFails, h1, h2, h4]

/-! ### The drain's end -/

/-- The sides and their draining roles. -/
def Drains (side : Side) (drains : Target → Purpose → Role) : Prop :=
  (side = .take ∧ drains = Role.drainingTake) ∨ (side = .supply ∧ drains = Role.drainingSupply)

section

variable {side : Side} {drains : Target → Purpose → Role} {x : Target} {u : Purpose} {s : State}

theorem checkDrain_of_record (h : Drains side drains) (hr : s.engine.role = drains x u)
    (ht : ∃ r ∈ s.engine.table, r.side = side) : checkDrain s = s := by
  obtain ⟨r, hm, hs⟩ := ht
  rcases h with ⟨rfl, rfl⟩ | ⟨rfl, rfl⟩
  · have : s.engine.table.any Record.isTake = true := List.any_eq_true.mpr ⟨r, hm, decide_eq_true hs⟩
    simp [checkDrain, hr, this]
  · have : s.engine.table.any Record.isSupply = true := List.any_eq_true.mpr ⟨r, hm, decide_eq_true hs⟩
    simp [checkDrain, hr, this]

theorem checkDrain_of_none (h : Drains side drains) (hr : s.engine.role = drains x u)
    (ht : ∀ r ∈ s.engine.table, r.side ≠ side) : checkDrain s = endDrain x u s := by
  rcases h with ⟨rfl, rfl⟩ | ⟨rfl, rfl⟩
  · have : s.engine.table.any Record.isTake = false :=
      List.any_eq_false.mpr fun r hm => by simpa [Record.isTake] using ht r hm
    simp [checkDrain, hr, this]
  · have : s.engine.table.any Record.isSupply = false :=
      List.any_eq_false.mpr fun r hm => by simpa [Record.isSupply] using ht r hm
    simp [checkDrain, hr, this]

/-- The role that the end of a drain leaves. -/
def drainedRole (x : Target) (s : State) : Role :=
  if x = .supplier ∧ supplyTestFails s = true then .idle else x.role

theorem endDrain_role (x : Target) (u : Purpose) (s : State) : (endDrain x u s).engine.role = drainedRole x s := by
  unfold endDrain drainedRole
  dsimp only
  simp only [Bool.and_eq_true, decide_eq_true_eq]
  cases u with
  | setRole tag => rw [completeLong_engine]
  | leaving => rfl

/-- The end of a drain that serves leaving. -/
theorem endDrain_leaving (x : Target) (s : State) : endDrain x .leaving s
    = { s with engine := { s.engine with role := drainedRole x s, finalDue := true, declareDue := true } } := by
  unfold endDrain drainedRole
  simp only [Bool.and_eq_true, decide_eq_true_eq]
  rfl

/-- The end of a drain that serves a SET_ROLE completes it. -/
theorem endDrain_setRole (x : Target) (tag : Byte) {l : LongRequest} (hl : s.host.long = some l) :
    let code := if x = .supplier ∧ supplyTestFails s = true then ResultCode.refusedState else .done
    (endDrain x (.setRole tag) s).host.long = none
      ∧ (endDrain x (.setRole tag) s).host.results = s.host.results ++ [⟨l.tag, l.kind.byte, code, []⟩]
      ∧ hasEvent .resultReady (endDrain x (.setRole tag) s) = true := by
  intro code
  have e : endDrain x (.setRole tag) s
      = completeLong code { s with engine := { s.engine with role := drainedRole x s } } := by
    unfold endDrain drainedRole
    simp only [Bool.and_eq_true, decide_eq_true_eq, code]
  rw [e, completeLong_of_some (s := { s with engine := { s.engine with role := drainedRole x s } }) hl]
  refine ⟨rfl, rfl, ?_⟩
  rw [hasEvent_of_bit (d := .resultReady) (s := s) rfl]
  simp

end

/-! ### The link while a drain runs -/

theorem planRecalls_link (p s : State) : (planRecalls p s).link = s.link := by
  have fold (g : State → Record → State) (hg : ∀ t r, (g t r).link = t.link) (rs : List Record) (t : State) :
      (rs.foldl g t).link = t.link := by
    induction rs generalizing t with
    | nil => rfl
    | cons r rs ih => rw [List.foldl_cons, ih, hg]
  unfold planRecalls
  split
  · refine fold _ (fun t r => ?_) _ s
    unfold planOne
    split
    · rfl
    · exact link_putRecord _ t
  · exact fold _ (fun t r => link_putRecord _ t) _ s
  · rfl

theorem trimExcess_of_drain {s : State} (h : s.engine.role ≠ .taker) : trimExcess s = s := if_neg h

/-- The queue in which a drain's notices are placed: as it was, or with a due DECLARE in it. -/
theorem beforeNotices_normal {p m : State} (hr : m.engine.role ≠ .taker) :
    (beforeNotices p m).link.normal = m.link.normal
      ∨ (m.link.normal.any OutFrame.isDeclare = true
          ∧ (beforeNotices p m).link.normal = takePlace m.engine.finalDue m.link.normal)
      ∨ (m.link.normal.any OutFrame.isDeclare = false ∧ ¬ p.link.normal.length < normalPlaces) := by
  have hb : Bargains true True m (planRecalls p m) := (Bargains.refl m).planRecalls p
  have e : trimExcess (planRecalls p m) = planRecalls p m := trimExcess_of_drain (by rwa [hb.role])
  unfold beforeNotices
  rw [e]
  split
  · exact .inl (by rw [planRecalls_link])
  · rename_i hp
    obtain ⟨_, _, l, e', hl⟩ := builderTurn_eq p (planRecalls p m)
    rw [planRecalls_link, hb.finalDue] at hl
    rw [e']
    rcases hl with rfl | ⟨ha, rfl⟩ | ⟨ha, -, -⟩
    · exact .inl rfl
    · exact .inr (.inl ⟨ha, rfl⟩)
    · exact .inr (.inr ⟨ha, hp⟩)

/-! ### The place of the final DECLARE -/

/-- The first DECLARE of a queue that holds one. -/
theorem exists_first_declare {l : List OutFrame} (h : l.any OutFrame.isDeclare = true) :
    ∃ before d after, l = before ++ d :: after ∧ d.isDeclare = true ∧ ∀ g ∈ before, g.isDeclare = false := by
  induction l with
  | nil => cases h
  | cons f l ih =>
    cases hf : f.isDeclare with
    | true => exact ⟨[], f, l, rfl, hf, nofun⟩
    | false =>
      obtain ⟨before, d, after, rfl, hd, hb⟩ := ih (by simpa [hf] using h)
      refine ⟨f :: before, d, after, rfl, hd, fun g hg => ?_⟩
      rcases List.mem_cons.mp hg with rfl | hg
      · exact hf
      · exact hb g hg

theorem isDeclare_of_isFinal {f : OutFrame} (h : f.isFinal = true) : f.isDeclare = true := by
  have : f.body = .declare true := of_decide_eq_true h
  simp [OutFrame.isDeclare, this]

/-- No notice stands behind a final DECLARE of the queue. -/
def NoNoticeBehind (l : List OutFrame) : Prop :=
  ∀ before f after, l = before ++ f :: after → f.isFinal = true → ∀ g ∈ after, g.isNotice = false

theorem noNoticeBehind_of_none {l : List OutFrame} (h : ∀ f ∈ l, f.isFinal = false) : NoNoticeBehind l := by
  intro before f after e hf
  have := h f (by simp [e])
  rw [hf] at this
  cases this

theorem NoNoticeBehind.append {l m : List OutFrame} (h : NoNoticeBehind m) (hl : ∀ f ∈ l, f.isFinal = false) :
    NoNoticeBehind (l ++ m) := by
  induction l with
  | nil => exact h
  | cons x l ih =>
    intro before f after e hf
    cases before with
    | nil =>
      obtain ⟨rfl, -⟩ := List.cons.inj e
      rw [hl x List.mem_cons_self] at hf
      cases hf
    | cons y before =>
      exact ih (fun f hf => hl f (List.mem_cons_of_mem x hf)) before f after (List.cons.inj e).2 hf

theorem noNoticeBehind_cons {d : OutFrame} {l : List OutFrame} (hf : ∀ f ∈ l, f.isFinal = false)
    (hn : ∀ f ∈ l, f.isNotice = false) : NoNoticeBehind (d :: l) := by
  intro before f after e hff
  cases before with
  | nil =>
    obtain ⟨-, rfl⟩ := List.cons.inj e
    exact hn
  | cons y before => exact noNoticeBehind_of_none hf before f after (List.cons.inj e).2 hff

/-- The place of the final DECLARE, where a drain that serves leaving ends. -/
theorem drained_leaving {p m : State} {side : Side} {drains : Target → Purpose → Role} {x : Target}
    (h : Drains side drains) (hs : m.control.station.speaks = true) (hr : m.engine.role = drains x .leaving)
    (ht : ∀ r ∈ (placeNotices (beforeNotices p m)).engine.table, r.side ≠ side) :
    let t := engineSettle p m
    t.engine.finalDue = true
      ∧ (t.link.normal.any OutFrame.isFinal = true ∨ (t.engine.declareDue = true ∧ 12 ≤ t.link.normal.length))
      ∧ (m.link.normal.any OutFrame.isDeclare = false → p.link.normal.length < 12 → NoNoticeBehind t.link.normal)
      ∧ ∀ before d after, m.link.normal = before ++ d :: after → d.isDeclare = true →
          (∀ g ∈ before, g.isDeclare = false) →
          ∃ more, t.link.normal = before ++ ⟨0, .declare true, 0⟩ :: (after ++ more) := by
  intro t
  have hnt : m.engine.role ≠ .taker := by
    rw [hr]
    rcases h with ⟨-, rfl⟩ | ⟨-, rfl⟩ <;> simp
  generalize hv : placeNotices (beforeNotices p m) = v at ht
  have hvr : v.engine.role = drains x .leaving := by
    rw [← hv, ((sameDrain_beforeNotices p m).trans (sameDrain_placeNotices _)).2.2.1, hr]
  have hw := (checkDrain_of_none h hvr ht).trans (endDrain_leaving x v)
  generalize hwv : checkDrain v = w at hw
  have hwd : w.engine.declareDue = true := by rw [hw]
  have hwf : w.engine.finalDue = true := by rw [hw]
  have hwl : w.link = v.link := by rw [hw]
  have hbefore : beforeAsks p m = builderTurn p w := by rw [beforeAsks, hv, hwv]
  obtain ⟨-, hfinal, hdue, -, -⟩ := askFrameOf_engineSettle (p := p) hs
  obtain ⟨asks, hasks, hask⟩ := asksBehind_engineSettle (p := p) hs
  rw [hbefore] at hfinal hdue hasks
  obtain ⟨hover, htail, hfull⟩ := builderTurn_final p hwd hwf
  rw [hwl] at hover htail hfull
  refine ⟨hfinal.trans ((builderTurn_frame p w).2.1.trans hwf), ?_, fun hn hp => ?_, fun before d after e hd hb => ?_⟩
  · cases ha : v.link.normal.any OutFrame.isDeclare with
    | true =>
      left
      obtain ⟨before, d, after, e, hd, hb⟩ := exists_first_declare ha
      rw [hasks, hover ha, e, takePlace_at true hb hd]
      simp [OutFrame.isFinal]
    | false =>
      cases hroom : normalRoom w with
      | true =>
        left
        rw [hasks, htail ha hroom]
        simp [OutFrame.isFinal]
      | false =>
        right
        obtain ⟨e, hd⟩ := hfull ha hroom
        refine ⟨hdue.trans hd, ?_⟩
        rw [normalRoom, decide_eq_false_iff_not, hwl] at hroom
        rw [hasks, e, List.length_append]
        exact (Nat.le_of_not_lt hroom).trans (Nat.le_add_right _ _)
  · have hvn : v.link.normal.any OutFrame.isDeclare = false := by
      have hbn : (beforeNotices p m).link.normal = m.link.normal := by
        rcases beforeNotices_normal (p := p) hnt with e | ⟨e, -⟩ | ⟨-, e⟩
        · exact e
        · rw [hn] at e; cases e
        · exact absurd hp e
      have hb : Bargains true True (beforeNotices p m) v := hv ▸ (Bargains.refl _).placeNotices
      rw [List.any_eq_false] at hn ⊢
      intro f hf hfd
      exact hn f (hbn ▸ hb.queue.mem_declare hf hfd) hfd
    have hvf : ∀ f ∈ v.link.normal, f.isFinal = false := by
      intro f hf
      by_contra hff
      exact List.any_eq_false.mp hvn f hf (isDeclare_of_isFinal (by simpa using hff))
    have haf : ∀ f ∈ asks, f.isFinal = false := fun f hf => (hask f hf).isFinal
    cases hroom : normalRoom w with
    | true =>
      rw [hasks, htail hvn hroom, List.append_assoc]
      exact (noNoticeBehind_cons haf fun f hf => (hask f hf).isNotice).append hvf
    | false =>
      rw [hasks, (hfull hvn hroom).1]
      exact (noNoticeBehind_of_none haf).append hvf
  · have hbn : ∃ d', d'.isDeclare = true ∧ (beforeNotices p m).link.normal = before ++ d' :: after := by
      rcases beforeNotices_normal (p := p) hnt with e' | ⟨-, e'⟩ | ⟨e', -⟩
      · exact ⟨d, hd, e'.trans e⟩
      · exact ⟨_, rfl, e'.trans (by rw [e, takePlace_at _ hb hd])⟩
      · rw [e] at e'
        simp [hd] at e'
    obtain ⟨d', hd', ebn⟩ := hbn
    obtain ⟨notices, ev⟩ := prefix_placeNotices (beforeNotices p m)
    rw [hv, ebn] at ev
    have ev' : v.link.normal = before ++ d' :: (after ++ notices) := by rw [← ev]; simp
    refine ⟨notices ++ asks, ?_⟩
    rw [hasks, hover (by rw [ev']; simp [hd']), ev', takePlace_at true hb hd']
    simp

/-- The end of a drain, as its happening leaves it. -/
theorem drained {b : Bool} {p m : State} {side : Side} {drains : Target → Purpose → Role} {x : Target} {u : Purpose}
    (h : Drains side drains) (hs : m.control.station.speaks = true) (hr : m.engine.role = drains x u) :
    let t := settle b p m
    let fails := x = .supplier ∧ supplyTestFails m = true
    ((∃ r ∈ t.engine.table, r.side = side) → t.engine.role = m.engine.role ∧ t.host.long = m.host.long)
    ∧ ((∀ r ∈ t.engine.table, r.side ≠ side) →
        t.engine.role = drainedRole x m
        ∧ (∀ tag l, u = .setRole tag → m.host.long = some l →
            t.host.long = none ∧ hasEvent .resultReady t = true
              ∧ t.host.results = m.host.results
                ++ [⟨l.tag, l.kind.byte, if fails then ResultCode.refusedState else .done, []⟩])
        ∧ (u = .leaving → t.host.long = m.host.long)) := by
  intro t fails
  have hl := not_loading_of_speaks hs
  obtain ⟨i, y, e⟩ := settle_eq (b := b) (p := p) hl
  have htable : t.engine.table = (placeNotices (beforeNotices p m)).engine.table := settle_table hs
  obtain ⟨hrole, -, -, -, hhost⟩ := askFrameOf_engineSettle (p := p) hs
  have hsame := (sameDrain_beforeNotices p m).trans (sameDrain_placeNotices (beforeNotices p m))
  have hbefore : beforeAsks p m = builderTurn p (checkDrain (placeNotices (beforeNotices p m))) := rfl
  generalize placeNotices (beforeNotices p m) = v at htable hsame hbefore
  obtain ⟨-, -, hsr, -, -, hsl, hsres⟩ := id hsame
  have htest := hsame.supplyTestFails
  obtain ⟨hbr, -, hbh⟩ := builderTurn_frame p (checkDrain v)
  rw [← hbefore] at hbr hbh
  have hE : (engineSettle p m).host = (checkDrain v).host := hhost.trans hbh
  have htr : t.engine.role = (checkDrain v).engine.role := by
    rw [show t.engine = _ from settle_engine hl, hrole, hbr]
  have htl : t.host.long = (checkDrain v).host.long := by
    show (settle b p m).host.long = _
    rw [e, hE]
  have htres : t.host.results = (checkDrain v).host.results := by
    show (settle b p m).host.results = _
    rw [e, hE]
  rw [htable]
  refine ⟨fun hrec => ?_, fun hno => ?_⟩
  · rw [htr, htl, checkDrain_of_record h (hsr.trans hr) hrec]
    exact ⟨hsr, hsl⟩
  · have hc := checkDrain_of_none h (hsr.trans hr) hno
    refine ⟨?_, fun tag l hu hlong => ?_, fun hu => ?_⟩
    · rw [htr, hc, endDrain_role]
      simp only [drainedRole, htest]
    · subst hu
      obtain ⟨h1, h2, h3⟩ := endDrain_setRole x tag (s := v) (hsl.trans hlong)
      refine ⟨by rw [htl, hc]; exact h1, ?_, ?_⟩
      · have hf : (settle b p m).host.flags
            = (checkDrain v).host.flags ||| changeBits p (engineSettle p m) := by rw [e, hE]
        rw [hasEvent_of_or hf, hc, h3, Bool.true_or]
      · rw [htres, hc, h2, hsres, htest]
    · subst hu
      rw [htl, hc, endDrain_leaving]
      exact hsl

/-! ### SET_ROLE toward a drain -/

theorem judge_setRole_joined {q : Request} {rest : List Request} {s : State} {x : Target} (h : Taking 3 q rest s)
    (hj : s.control.station = .joined) (hx : Target.ofCode q.arg0.toNat = some x) (dt : Nat) :
    judge q (reservedFor rest (advance dt s)) = changeRole q x (reservedFor rest (advance dt s)) := by
  have hst : (reservedFor rest (advance dt s)).control.station = .joined := (advance_control dt s) ▸ hj
  rw [judge_setRole h.2.2.2.1, takeSetRole_of_joined hst hx]

/-- Settles O31: SET_ROLE by the role it finds, and the drain's end. -/
theorem roleDrains : Obligations.RoleDrains := by
  refine ⟨fun dt q rest x s => ?_, fun shed p m x u side drains h hs hr => ?_⟩
  · intro p waits ho h hj hx
    have hexec : exec (.setRole dt) s = .next (settle false p (changeRole q x (reservedFor rest p))) := by
      rw [exec_taking (i := .setRole dt) h rfl rfl, judge_setRole_joined h hj hx]
    have hhost : p.host = s.host := by simp [p]
    have hrole : (reservedFor rest p).engine.role = s.engine.role := by simp [p, reservedFor]
    have htest : supplyTestFails (reservedFor rest p) = supplyTestFails s := supplyTestFails_advance dt s
    have ho' : TablesOrdered (reservedFor rest p) :=
      ho.of_same (by simp [p, reservedFor]) (by simp [p, reservedFor]) (by simp [p, reservedFor])
    have hs' : (reservedFor rest p).control.station.speaks = true := by simp [p, reservedFor, hj, Station.speaks]
    have hreq : reservedFor rest p = requesting rest (s.host.reserved + 1) p.host.long p := by rw [← hhost]; rfl
    refine ⟨fun hr hxt hf => ?_, fun hr hxs => ?_, fun y u l left again ha hr hl => ?_⟩
    · intro m
      have hm : becomeLong .setRole q (beginDrainTake x (.setRole q.tag) (reservedFor rest p))
          = { m with engine := { m.engine with role := .drainingTake x (.setRole q.tag) } } := by
        rw [beginDrainTake_eq ho' hs', hreq, withTakesClosed_requesting]
        rfl
      rw [hexec, changeRole_drains_taker (hrole.trans hr) hxt (by rwa [htest]), hm]
    · intro m
      have hm : becomeLong .setRole q (beginDrainSupply x (.setRole q.tag) (reservedFor rest p))
          = { m with engine := { m.engine with role := .drainingSupply x (.setRole q.tag) } } := by
        rw [beginDrainSupply_eq ho', hreq, withSuppliesRecalled_requesting]
        rfl
      rw [hexec, changeRole_drains_supplier (hrole.trans hr) hxs, hm]
    · intro aborted
      have hlong : (reservedFor rest p).host.long = some l := by rw [← hl, ← hhost]; rfl
      have hover := changeRole_overtakes (q := q) (x := x) ha (hrole.trans hr)
      refine ⟨fun hxl => ?_, fun hxl hf => ?_⟩
      · rw [hexec, hover, overtakeDrain, if_pos hxl, completeLong_of_some
          (s := { reservedFor rest p with engine := { (reservedFor rest p).engine with role := left.role } }) hlong]
        simp [finish, complete, setEvent, completed, reservedFor, BitVec.or_assoc, aborted, hhost]
      · rw [hexec, hover, overtakeDrain, if_neg hxl, if_neg (by rintro ⟨h1, h2⟩; rw [htest, hf h1] at h2; cases h2)]
        dsimp only
        rw [completeLong_of_some
          (s := { reservedFor rest p with engine := { (reservedFor rest p).engine with role := again x (.setRole q.tag) } })
          hlong]
        simp [becomeLong, reservedFor, aborted, hhost]
  · intro t fails noneBehind
    have hl := not_loading_of_speaks hs
    obtain ⟨h1, h2⟩ := drained (b := shed) (p := p) h hs hr
    refine ⟨h1, fun hno => ?_⟩
    obtain ⟨hrole, hset, hleave⟩ := h2 hno
    refine ⟨fun hf => hrole.trans (if_pos hf), fun hf => hrole.trans (if_neg hf), fun tag l hu hlong => ?_,
      fun hu _ => ?_⟩
    · obtain ⟨k1, k2, k3⟩ := hset tag l hu hlong
      exact ⟨k1, k2, fun hf => k3.trans (by rw [if_pos hf]), fun hf => k3.trans (by rw [if_neg hf])⟩
    · subst hu
      rw [show t.engine.table = _ from settle_table hs] at hno
      obtain ⟨k1, k2, k3, k4⟩ := drained_leaving (p := p) h hs hr hno
      rw [show t.link = _ from settle_link hl, show t.engine = _ from settle_engine hl]
      refine ⟨k1, hleave rfl, k2, fun hn _ hp => ?_, k4⟩
      rw [show noneBehind t = NoNoticeBehind t.link.normal from rfl, show t.link = _ from settle_link hl]
      exact k3 hn hp

end Sys2Proof.Machine
end

section
/-! SUPPORT. Transmissions: how an attempt begins, and what its end tells the frame's owner. -/

namespace Sys2Proof.Machine

/-! ### Attempts begun -/

section Attempts

variable {s : State}

theorem beginAttempt_fixed {c : Current} {pl : Payload} (h : c.frame.body = .fixed pl) : beginAttempt c s
    = { s with link := { s.link with
        current := some { c with attempts := c.attempts + 1, phase := .attempting s.now, content := pl }
        idleSince := none } } := by
  simp [beginAttempt, OutFrame.isDeclare, h, composeBody]

theorem beginAttempt_declare {c : Current} {final : Bool} (h : c.frame.body = .declare final) : beginAttempt c s
    = { s with
        engine := { s.engine with changePending := false }
        link := { s.link with
          current := some { c with
            attempts := c.attempts + 1, phase := .attempting s.now, content := .declare (composeDeclare final s) }
          idleSince := none } } := by
  simp [beginAttempt, OutFrame.isDeclare, h, composeBody]

/-- A broadcast becomes current without a sequence. -/
theorem makeCurrent_broadcast {f : OutFrame} (h : f.dst = 0) :
    makeCurrent f s = beginAttempt ⟨f, 0, 0, 0, .backoff, .ack⟩ s := by
  simp [makeCurrent, OutFrame.isDirected, h]

/-- A directed frame takes the next sequence of its destination's entry. -/
theorem makeCurrent_directed {f : OutFrame} {q : Peer} (h : f.dst ≠ 0) (hq : findPeer s f.dst = some q) :
    makeCurrent f s = beginAttempt ⟨f, q.nextOut, 0, 0, .backoff, .ack⟩ { s with
      peers := s.peers.map fun x => if x.addr = f.dst then { x with nextOut := x.nextOut + 1 } else x } := by
  simp [makeCurrent, OutFrame.isDirected, h, hq, updatePeer]

theorem candidate_urgent {f : OutFrame} {rest : List OutFrame} (hc : s.link.current = none)
    (hu : s.link.urgent = f :: rest) : candidate s = some (.urgent f rest) := by
  simp [candidate, hc, hu]

theorem candidate_preempted {c : Current} (hc : s.link.current = none) (hu : s.link.urgent = [])
    (hp : s.link.preempted = some c) : candidate s = some (.preempted c) := by
  simp [candidate, hc, hu, hp]

theorem candidate_normal {f : OutFrame} {rest : List OutFrame} (hc : s.link.current = none) (hu : s.link.urgent = [])
    (hp : s.link.preempted = none) (hn : s.link.normal = f :: rest) : candidate s = some (.normal f rest) := by
  simp [candidate, hc, hu, hp, hn]

/-- The quiet gap's end takes the candidate, not before its time. -/
theorem quietGapEnds_of_candidate {c : Candidate} {k since : Nat} (hs : s.control.station.speaks = true)
    (ho : s.link.ackOut = none) (hi : s.link.idleSince = some since) (hk : k ≤ 15) (hc : candidate s = some c) :
    quietGapEnds k s = takeCandidate c { s with now := max s.now (since + c.gap k) } := by
  simp [quietGapEnds, hc, hi, hs, hk, reach_of_ackOut_none _ _ ho]

/-- The backoff's end begins the next attempt, not before its time. -/
theorem retryGapEnds_of_backoff {c : Current} {k since : Nat} (ho : s.link.ackOut = none)
    (hi : s.link.idleSince = some since) (hc : s.link.current = some c) (hb : c.phase = .backoff)
    (hk : k ≤ if c.frame.isUrgent then 7 else 15) : retryGapEnds k s
      = beginAttempt c { s with
          now := max s.now (since + if c.frame.isUrgent then urgentRetryGap k else normalGap k) } := by
  simp [retryGapEnds, hc, hi, hb, hk, reach_of_ackOut_none _ _ ho]

/-- A directed frame whose destination has an entry becomes current. -/
theorem takeCandidate_known {f : OutFrame} {rest : List OutFrame} {q : Peer} (hq : findPeer s f.dst = some q) :
    takeCandidate (.normal f rest) s = makeCurrent f { s with link := { s.link with normal := rest } } := by
  have hk : knownPeer { s with link := { s.link with normal := rest } } f.dst = true := knownPeer_of_findPeer hq
  simp [takeCandidate, hk]

theorem takeCandidate_broadcast {f : OutFrame} {rest : List OutFrame} (h : f.dst = 0) :
    takeCandidate (.normal f rest) s = makeCurrent f { s with link := { s.link with normal := rest } } := by
  simp [takeCandidate, OutFrame.isDirected, h]

/-- A directed frame whose destination has none is given up. -/
theorem takeCandidate_unknown {f : OutFrame} {rest : List OutFrame} (h : f.dst ≠ 0) (hq : findPeer s f.dst = none) :
    takeCandidate (.normal f rest) s = ownerGivenUp f { s with
      link := { s.link with
        normal := rest
        counters := { s.link.counters with giveUps := min 65535 (s.link.counters.giveUps + 1) } }
      host := { s.host with flags := s.host.flags ||| Event.linkGiveup.bit } } := by
  have hk : knownPeer { s with link := { s.link with normal := rest } } f.dst = false := by
    rw [findPeer, List.find?_eq_none] at hq
    simpa [knownPeer] using hq
  simp [takeCandidate, hk, OutFrame.isDirected, h, reportGivenUp, setEvent, bump, counterMax]

end Attempts

/-- Settles O42: the candidate taken, by its kind, and the backoff's end. -/
theorem attemptBegins : Obligations.AttemptBegins := by
  intro dt k since s p e u hr hs ho hi hk
  have hp : p = { s with now := s.now + dt } := advance_of_ackOut_none dt s ho
  have hsp : p.control.station.speaks = true := by rw [hp]; exact hs
  have hop : p.link.ackOut = none := by rw [hp]; exact ho
  have hip : p.link.idleSince = some since := by rw [hp]; exact hi
  have hlink : p.link = s.link := by rw [hp]
  have hengine : p.engine = s.engine := by rw [hp]
  have hpeers : s.peers = p.peers := by rw [hp]
  have hcounters : s.link.counters = p.link.counters := by rw [hp]
  have hflags : s.host.flags = p.host.flags := by rw [hp]
  have hfind (a : Nat) : findPeer s a = findPeer p a := by rw [hp]; rfl
  have hcomp (final : Bool) (n : Nat) (l : Link) : composeDeclare final { p with now := n, link := l }
      = composeDeclare final s := by rw [hp]; rfl
  have hnormal : max p.now (since + normalGap k) = e := by simp only [e, normalGap]; rw [Nat.add_assoc]
  have hquiet {c : Candidate} (hc : candidate s = some c) : exec (.quietGapEnd dt k) s
      = .next (settle false p (takeCandidate c { p with now := max p.now (since + c.gap k) })) := by
    have hcp : candidate p = some c := by rw [← hc, candidate, candidate, hlink]
    rw [exec_happens (i := .quietGapEnd dt k) rfl hr, quietGapEnds_of_candidate hsp hop hip hk hcp]
  have hretry {c : Current} (hc : s.link.current = some c) (hb : c.phase = .backoff)
      (hk' : k ≤ if c.frame.isUrgent then 7 else 15) : exec (.retryGapEnd dt k) s = .next (settle false p
        (beginAttempt c { p with
          now := max p.now (since + if c.frame.isUrgent then urgentRetryGap k else normalGap k) })) := by
    rw [exec_happens (i := .retryGapEnd dt k) rfl hr, retryGapEnds_of_backoff hop hip (by rw [hlink]; exact hc) hb hk']
  rw [hpeers, hcounters, hflags]
  refine ⟨fun f rest pl q hc hu hpre hn hd hb hq => ?_, fun rest final ref hc hu hpre hn => ?_,
    fun rail rest hc hu => ?_, fun f rest pl hc hu hpre hn hd hb hq => ?_, fun c pl hc hu hpre hb => ?_,
    fun c final hc hu hpre hb => ?_, fun c pl hc hph hb hur => ?_, fun c final hc hph hb => ?_,
    fun c rail hc hph hb hk7 => ?_⟩
  · rw [hquiet (candidate_normal hc hu hpre hn), Candidate.gap, hnormal,
      takeCandidate_known (s := { p with now := e }) ((hfind f.dst).symm.trans hq),
      makeCurrent_directed (s := { p with now := e, link := { p.link with normal := rest } }) hd
        ((hfind f.dst).symm.trans hq), beginAttempt_fixed (c := ⟨f, q.nextOut, 0, 0, .backoff, .ack⟩) hb]
  · rw [hquiet (candidate_normal hc hu hpre hn), Candidate.gap, hnormal, takeCandidate_broadcast rfl,
      makeCurrent_broadcast rfl,
      beginAttempt_declare (c := ⟨⟨0, .declare final, ref⟩, 0, 0, 0, .backoff, .ack⟩) (final := final) rfl, hcomp]
  · rw [hquiet (candidate_urgent hc hu), takeCandidate, makeCurrent_broadcast rfl,
      beginAttempt_fixed (c := ⟨⟨0, .fixed (.alert rail), 0⟩, 0, 0, 0, .backoff, .ack⟩) (pl := .alert rail) rfl]
    rfl
  · rw [hquiet (candidate_normal hc hu hpre hn), Candidate.gap, hnormal,
      takeCandidate_unknown (s := { p with now := e }) hd ((hfind f.dst).symm.trans hq)]
  · rw [hquiet (candidate_preempted hc hu hpre), Candidate.gap, hnormal, takeCandidate, beginAttempt_fixed hb]
  · rw [hquiet (candidate_preempted hc hu hpre), Candidate.gap, hnormal, takeCandidate, beginAttempt_declare hb, hcomp]
  · rw [hretry hc hph (by rw [hur]; exact hk), hur, if_neg (by decide), hnormal, beginAttempt_fixed hb]
  · have hur : c.frame.isUrgent = false := by simp [OutFrame.isUrgent, hb]
    rw [hretry hc hph (by rw [hur]; exact hk), hur, if_neg (by decide), hnormal, beginAttempt_declare hb]
    have := hcomp final e p.link
    rw [this]
  · have hur : c.frame.isUrgent = true := by simp [OutFrame.isUrgent, hb]
    rw [hretry hc hph (by rw [hur]; exact hk7), hur, if_pos rfl, beginAttempt_fixed hb, urgentRetryGap, ← Nat.add_assoc]

end Sys2Proof.Machine
end

section
/-! SUPPORT. What a frame's outcome does: to its ask, its record, its DECLARE, and the final DECLARE's way to OFFLINE. -/

namespace Sys2Proof.Machine

/-! ### The outcomes -/

section Outcomes

variable {f : OutFrame} {s : State}

theorem ownerSent_declare (h : f.body = .declare false) :
    ownerSent f s = { s with engine := { s.engine with lastInstant := some s.now } } := by
  simp [ownerSent, h, declareOutcome]

theorem ownerSent_final (h : f.body = .declare true) :
    ownerSent f s = enterOffline { s with engine := { s.engine with lastInstant := some s.now } } := by
  simp [ownerSent, h, declareOutcome]

theorem ownerSent_alert {rail : Nat} (h : f.body = .fixed (.alert rail)) :
    ownerSent f s = { s with path := { s.path with lastAlert := some s.now } } := by
  simp [ownerSent, h]

theorem ownerGivenUp_declare (h : f.body = .declare false) :
    ownerGivenUp f s = { s with engine := { s.engine with lastInstant := some s.now } } := by
  simp [ownerGivenUp, h, declareOutcome]

theorem ownerGivenUp_final (h : f.body = .declare true) :
    ownerGivenUp f s = enterOffline { s with engine := { s.engine with lastInstant := some s.now } } := by
  simp [ownerGivenUp, h, declareOutcome]

/-- A kind past ASK and GRANT that is given up reports to no one. -/
theorem ownerGivenUp_other {pl : Payload} (h : f.body = .fixed pl) (hk : 4 ≤ pl.kind) : ownerGivenUp f s = s := by
  cases pl <;> simp [Payload.kind] at hk <;> simp [ownerGivenUp, h]

/-- A notice, a HOLD, a DECLINE or an ACK that is SENT reports to no one. -/
theorem ownerSent_other {pl : Payload} (h : f.body = .fixed pl) (hk : 4 ≤ pl.kind) (hk' : pl.kind ≤ 9) :
    ownerSent f s = s := by
  cases pl <;> simp [Payload.kind] at hk hk' <;> simp [ownerSent, h]

theorem failing_of_exhausted {c : Current} (h : 7 ≤ c.failures) (hd : c.frame.dst = 0) : failing c s
    = ownerGivenUp c.frame { s with link := { s.link with
        current := none, counters := { s.link.counters with giveUps := min 65535 (s.link.counters.giveUps + 1) } } } := by
  rw [failing, if_neg (by omega), if_pos hd]

theorem failing_of_backoff {c : Current} (h : c.failures + 1 < 8) (hu : s.link.urgent = []) : failing c s
    = { s with link := { s.link with current := some { c with failures := c.failures + 1, phase := .backoff } } } := by
  rw [failing, if_pos h]
  dsimp only
  rw [if_neg fun hh => hh.2 hu]

end Outcomes

/-! ### The final DECLARE's way to OFFLINE -/

/-- A happening whose effect enters OFFLINE with a LEAVE in progress. -/
theorem leaves {b : Bool} {p s v : State} {tag : Byte} (hp : p.control.station = s.control.station)
    (hv : SameStation s v) (hl : v.host.long = some ⟨.leave, tag⟩) :
    let t := settle b p (enterOffline v)
    EntersOffline s t ∧ t.host.long = none ∧ t.host.results = v.host.results ++ [⟨tag, 4, .done, []⟩]
      ∧ t.link.counters = v.link.counters := by
  intro t
  obtain ⟨_, _, h, e, -⟩ := enterOffline_spec v
  have hms : (enterOffline v).control.station = .offline := by rw [e]
  have hs : (enterOffline v).control.station.speaks = false := by rw [hms]; rfl
  have hload : (enterOffline v).control.station ≠ .loading := by rw [hms]; decide
  obtain ⟨i, x, et⟩ := settle_of_silent (b := b) (p := p) hs hload
  obtain ⟨h1, h2⟩ := enterOffline_host_of_leave hl
  have hlong : t.host.long = (enterOffline v).host.long := by show (settle b p (enterOffline v)).host.long = _; rw [et]
  have hres : t.host.results = (enterOffline v).host.results := by
    show (settle b p (enterOffline v)).host.results = _; rw [et]
  have hlink : t.link = (enterOffline v).link := by show (settle b p (enterOffline v)).link = _; rw [et]
  refine ⟨entersOffline_settle hp hv rfl rfl, hlong.trans h1, hres.trans h2, ?_⟩
  rw [hlink, e]

/-! ### Collisions -/

/-- A collision of the attempt being driven fails it. -/
theorem collide_of_attempting {c : Current} {start : Nat} {s : State} (ha : attemptOf s = some (c, start))
    (ho : s.link.ackOut = none) (hn : s.now ≤ c.txEnd start) : collide s = failing c (countCollision s) := by
  have : attemptOf (countCollision s) = some (c, start) := ha
  simp only [collide, ho, ha, hn, ↓reduceIte]
  exact attemptFails_eq this

/-- Settles O41: the ACK begun, the ACK broken off, and the attempt that fails. -/
theorem ackAndCollision : Obligations.AckAndCollision := by
  intro dt s p counted hr
  refine ⟨fun a hd ho => ?_, fun a ha hlt => ?_, fun c start hatt ho hle => ?_⟩
  · have hp : p = { s with now := s.now + dt } := advance_of_ackOut_none dt s ho
    have hop : p.link.ackOut = none := by rw [hp]; exact ho
    rw [exec_happens (i := .ackTransmit dt) rfl hr]
    simp [ackBegins, p, reach_of_ackOut_none _ _ hop, hd]
  · have hp : p = { s with now := s.now + dt } := by
      have : ¬ a.start + 56 ≤ s.now + dt := Nat.not_le.mpr hlt
      simp [p, advance, reach, ha, ackLength, this]
    rw [exec_happens (i := .collision dt) rfl hr, show advance dt s = p from rfl, hp]
    simp only [collide, ha]
    rfl
  · intro t ended
    have hp : p = { s with now := s.now + dt } := advance_of_ackOut_none dt s ho
    have hap : attemptOf p = some (c, start) := by rw [attemptOf_advance]; exact attemptOf_of_attempting hatt
    have ht : countCollision p = t := by
      simp only [t, counted, show s.link.counters = p.link.counters by rw [hp]]
      rfl
    have hexec : exec (.collision dt) s = .next (settle false p (failing c t)) := by
      rw [exec_happens (i := .collision dt) rfl hr,
        collide_of_attempting hap (by rw [hp]; exact ho) (by rw [hp]; exact hle), ht]
    have hended (h7 : 7 ≤ c.failures) (hd : c.frame.dst = 0) : failing c t = ownerGivenUp c.frame ended :=
      failing_of_exhausted h7 hd
    have hnow : ended.now = p.now := rfl
    refine ⟨hexec, fun hf hu => ?_, fun h7 hd => ⟨fun hb => ?_, fun rail hb => ?_, fun tag hb hl => ?_⟩⟩
    · rw [hexec, failing_of_backoff hf (by simpa [t, p] using hu)]
    · rw [hexec, hended h7 hd, ownerGivenUp_declare hb]
    · rw [hexec, hended h7 hd, ownerGivenUp_other hb (by show 4 ≤ 10; decide)]
    · rw [hended h7 hd, ownerGivenUp_final hb] at hexec
      have hsame : SameStation s { ended with engine := { ended.engine with lastInstant := some ended.now } } := by
        simp only [ended, t, hp]
        exact ⟨rfl, rfl, rfl, rfl, rfl, rfl, rfl, rfl, rfl, rfl⟩
      obtain ⟨h1, h2, h3, h4⟩ := leaves (b := false) (p := p) (tag := tag) (by simp [p]) hsame (by simpa [ended, t, p] using hl)
      refine ⟨_, hexec, h1, h2, h3.trans ?_, h4⟩
      simp [ended, t, p]

/-! ### Attempts that end -/

/-- Settles O43: the transmission's end and the window's. -/
theorem attemptEnds : Obligations.AttemptEnds := by
  intro dt start c s p e w sent hatt ho
  have hr := hatt.1
  have hp : p = { s with now := s.now + dt } := advance_of_ackOut_none dt s ho
  have hop : p.link.ackOut = none := by rw [hp]; exact ho
  have hap : attemptOf p = some (c, start) := by rw [attemptOf_advance]; exact attemptOf_of_attempting hatt
  have hcounters : s.link.counters = p.link.counters := by rw [hp]
  have hbroadcast (hd : c.frame.dst = 0) :
      exec (.broadcastTransmissionEnd dt) s = .next (settle false p (ownerSent c.frame sent)) := by
    rw [exec_happens (i := .broadcastTransmissionEnd dt) rfl hr]
    have : broadcastEnds p = ownerSent c.frame sent := by
      simp only [broadcastEnds, hap, OutFrame.isDirected, hd, sent, hcounters, reach_of_ackOut_none _ _ hop]
      rfl
    rw [this]
  refine ⟨fun hd hb => ?_, fun rail hd hb => ?_, fun tag hd hb hl => ?_, fun hd => ?_⟩
  · rw [hbroadcast hd, ownerSent_declare hb]
  · rw [hbroadcast hd, ownerSent_alert hb]
  · have hexec := hbroadcast hd
    rw [ownerSent_final hb] at hexec
    have hsame : SameStation s { sent with engine := { sent.engine with lastInstant := some sent.now } } := by
      simp only [sent, hp]
      exact ⟨rfl, rfl, rfl, rfl, rfl, rfl, rfl, rfl, rfl, rfl⟩
    obtain ⟨h1, h2, h3, h4⟩ := leaves (b := false) (p := p) (tag := tag) (by simp [p]) hsame (by simpa [sent, p] using hl)
    refine ⟨_, hexec, h1, h2, h3.trans ?_, h4⟩
    simp [sent, p]
  · rw [exec_happens (i := .ackWindowClose dt) rfl hr]
    have : windowCloses p = failing c { p with now := w, link := { p.link with idleSince := some (c.txEnd start) } } := by
      have hd' : c.frame.isDirected = true := by simp [OutFrame.isDirected, hd]
      simp only [windowCloses, hap, hd', ↓reduceIte, reach_of_ackOut_none _ _ hop, ackWindow]
      exact attemptFails_eq (t := start) (by exact hap)
    rw [this]

end Sys2Proof.Machine
end

section
/-! SUPPORT. What an ACK does, and the reports of a frame SENT or GIVEN_UP. -/

namespace Sys2Proof.Machine

/-! ### The record of a GRANT -/

section Grant

variable {s : State} {i : Nat} {v : Revision} {x : Record}

theorem grantRecord_of_found (h : findSupply s i = some x) (ho : x.isOpenGrant = true) (hv : x.revision = v) :
    grantRecord s i v = some x := by
  simp [grantRecord, h, ho, hv]

theorem grantRecord_of_none (h : ∀ x, findSupply s i = some x → x.isOpenGrant = false ∨ x.revision ≠ v) :
    grantRecord s i v = none := by
  rw [grantRecord, Option.filter_eq_none_iff]
  intro x hx
  rcases h x hx with h | h <;> simp [h]

theorem findRecord_of_findSupply (h : findSupply s i = some x) : findRecord x.supplier x.id s.engine.table = some x := by
  obtain ⟨-, -, hsup, hid⟩ := findSupply_spec h
  rw [hsup, hid]
  exact (Option.filter_eq_some_iff.mp h).1

/-- A grant confirmed keeps its amount, so that no change is pending by it. -/
theorem confirmGrant_eq (h : findSupply s i = some x) (ho : x.isOpenGrant = true) (hs : s.control.station.speaks = true) :
    confirmGrant x s = { withRecord { x with state := .active } s with
      engine := { (withRecord { x with state := .active } s).engine with changePending := s.engine.changePending } } := by
  have hv : x.visible ≠ ({ x with state := .active } : Record).visible := by
    cases hx : x.state <;> simp_all [Record.isOpenGrant, Record.visible, RecordState.code]
  have e := putRecord_of_visible (old := x) (new := { x with state := .active }) (s := s)
    (by exact findRecord_of_findSupply h) hv nofun hs
  rw [confirmGrant, e]
  simp

theorem undoGrant_provisional (h : findSupply s i = some x) (hx : x.state = .provisional)
    (hs : s.control.station.speaks = true) : undoGrant x s = withoutRecord x.supplier x.id s := by
  simp only [undoGrant, hx]
  exact dropRecord_of_found (findRecord_of_findSupply h) hs

theorem undoGrant_raising {a : Nat} {w : Revision} (h : findSupply s i = some x) (hx : x.state = .raising a w)
    (ha : a ≠ x.amount) (hs : s.control.station.speaks = true) :
    undoGrant x s = withRecord { x with amount := a, revision := w, state := .active } s := by
  simp only [undoGrant, hx]
  exact putRecord_of_found (old := x) (by exact findRecord_of_findSupply h)
    (by simp [Record.visible, hx, RecordState.code]) (.inl ha.symm) hs

end Grant

/-! ### An ACK -/

/-- An ACK received, by whether it ends the attempt. -/
theorem exec_receiveAck {dt : Nat} {r : Reception} {f : Frame} {s : State} (hr : s.control.resetHeld = false)
    (hh : s.control.station.hears = true) (hc : classify r = .valid f) (hb : f.body = .ack) :
    exec (.receiveAck dt r) s = .next (settle false (advance dt s) (onReception r
      (onFrame f fun u => if ackEnds r f (advance dt s) then ackArrives u else u) (!ackEnds r f (advance dt s))
      (advance dt s))) := by
  rw [exec_happens (i := .receiveAck dt r) rfl hr, receiveAckEffect_of_valid hc hb (by simpa using hh)]

section Ack

variable {r : Reception} {f : Frame} {s : State} {c : Current} {start : Nat}

theorem ackEnds_of_no_attempt (ho : s.link.ackOut = none) (ha : attemptOf s = none) : ackEnds r f s = false := by
  have : inWindow r (receptionEnd r s) = false := by
    have e : receptionEnd r s = s := by simp [receptionEnd, driveEnd, ho, ha]
    simp [inWindow, e, ha]
  simp [ackEnds, this]

/-- An ACK ends the attempt where it began in the window and matches. -/
theorem ackEnds_iff (h : attemptOf s = some (c, start)) (ho : s.link.ackOut = none)
    (hne : f.src ≠ ownAddress s) : ackEnds r f s = true
      ↔ (c.frame.dst ≠ 0 ∧ max s.now (c.txEnd start + r.time) ≤ c.txEnd start + 14 + r.time)
        ∧ f.dst = ownAddress s ∧ f.src = c.frame.dst ∧ f.seq = c.seq := by
  have e : receptionEnd r s = { s with now := max s.now (c.txEnd start + r.time) } := receptionEnd_of_attempt r h ho
  have hw : inWindow r (receptionEnd r s) = inWindow r (receivedAt (max s.now (c.txEnd start + r.time)) s) := by
    rw [e]; rfl
  have hm : ackMatches f (receptionEnd r s) = true ↔ f.dst = ownAddress s ∧ f.src = c.frame.dst ∧ f.seq = c.seq := by
    have ha : attemptOf { s with now := max s.now (c.txEnd start + r.time) } = some (c, start) := h
    rw [e]
    simp only [ackMatches, ha, Bool.and_eq_true, beq_iff_eq, and_assoc]
    exact Iff.rfl
  simp only [ackEnds, Bool.and_eq_true, hw, hm, inWindow_receivedAt h, bne_iff_ne, ne_eq, hne, not_false_eq_true, and_true]

/-- An ACK that matches ends the attempt as SENT. -/
theorem ackArrives_eq (hc : s.link.current = some c) : ackArrives s = ownerSent c.frame { s with link := { s.link with
    current := none
    counters := { s.link.counters with framesSent := min 65535 (s.link.counters.framesSent + 1) } } } := by
  simp only [ackArrives, hc]
  rfl

end Ack

/-- Settles the first half of O38: what the ACK does to the attempt. -/
theorem ackReports (dt : Nat) (r : Reception) (f : Frame) (s : State) (hr : s.control.resetHeld = false)
    (hh : s.control.station.hears = true) (ho : s.link.ackOut = none) (hcl : classify r = .valid f) (hb : f.body = .ack)
    (hne : f.src ≠ ownAddress s) :
    let p := advance dt s
    (attemptOf s = none → exec (.receiveAck dt r) s = .next (settle false p (heard f p)))
      ∧ ∀ c start, Attempting c start s →
        let n := max p.now (c.txEnd start + r.time)
        (c.frame.dst = 0 ∨ c.txEnd start + 14 + r.time < n →
          exec (.receiveAck dt r) s = .next (settle false p (heard f { p with now := n })))
        ∧ (c.frame.dst ≠ 0 → n ≤ c.txEnd start + 14 + r.time →
            (f.dst ≠ ownAddress s ∨ f.src ≠ c.frame.dst ∨ f.seq ≠ c.seq →
              exec (.receiveAck dt r) s = .next (settle false p (failing c (heard f { p with now := n }))))
            ∧ (f.dst = ownAddress s → f.src = c.frame.dst → f.seq = c.seq →
              exec (.receiveAck dt r) s = .next (settle false p (ackArrives (heard f { p with now := n }))))) := by
  intro p
  have hexec := exec_receiveAck (dt := dt) hr hh hcl hb
  have hop : p.link.ackOut = none := advance_ackOut_of_none dt s ho
  have hown : ownAddress p = ownAddress s := ownAddress_advance ..
  refine ⟨fun ha => ?_, fun c start hatt => ?_⟩
  · have hap : attemptOf p = none := by rwa [attemptOf_advance]
    rw [hexec, ackEnds_of_no_attempt hop hap, onReception_of_no_attempt hop hap, onFrame_of_other (by exact hown ▸ hne)]
    exact congrArg _ (congrArg _ hear_lineIdle)
  · intro n
    have hap : attemptOf p = some (c, start) := by rw [attemptOf_advance]; exact attemptOf_of_attempting hatt
    have hends := ackEnds_iff (r := r) (f := f) hap hop (hown ▸ hne)
    rw [hown] at hends
    have hw := inWindow_receivedAt (r := r) hap
    have hframe (rest : State → State) : onFrame f rest (receivedAt n p) = rest (heard f { p with now := n }) := by
      rw [onFrame_of_other (by exact hown ▸ hne), hear_receivedAt]
    have hrec {fails : Bool} (apply : State → State) : onReception r apply fails p
        = if fails && inWindow r (receivedAt n p) then attemptFails (apply (receivedAt n p)) else apply (receivedAt n p) :=
      onReception_of_attempt hap hop fails
    have hatt' : attemptOf (heard f { p with now := n }) = some (c, start) := hap
    refine ⟨fun h => ?_, fun hd hin => ⟨fun h => ?_, fun h1 h2 h3 => ?_⟩⟩
    · have hout : inWindow r (receivedAt n p) = false := by
        rw [← Bool.not_eq_true, hw]
        rintro ⟨h1, h2⟩
        rcases h with h | h
        · exact h1 h
        · exact absurd h (Nat.not_lt.mpr h2)
      have he : ackEnds r f p = false := by
        rw [← Bool.not_eq_true, hends]
        rintro ⟨⟨h1, h2⟩, -⟩
        rcases h with h | h
        · exact h1 h
        · exact absurd h (Nat.not_lt.mpr h2)
      rw [hexec, he, hrec, hout, Bool.and_false, if_neg (by decide), hframe]
      rfl
    · have he : ackEnds r f p = false := by
        rw [← Bool.not_eq_true, hends]
        rintro ⟨-, h1, h2, h3⟩
        rcases h with h | h | h
        · exact h h1
        · exact h h2
        · exact h h3
      rw [hexec, he, hrec, hw.mpr ⟨hd, hin⟩, if_pos (show (!false && true) = true from rfl), hframe, if_neg (by decide), attemptFails_eq hatt']
    · have he : ackEnds r f p = true := hends.mpr ⟨⟨hd, hin⟩, h1, h2, h3⟩
      rw [hexec, he, hrec, Bool.not_true, Bool.false_and, if_neg (by decide), hframe, if_pos rfl]

/-- Settles O38: the ACK by its window and match, and the frame given up by its kind. -/
theorem ackReportsAskSent : Obligations.AckReportsAskSent := by
  refine ⟨fun dt r f s => ?_, fun f q hs => ?_⟩
  · intro p hr hh ho hcl hb hne
    obtain ⟨hidle, hatts⟩ := ackReports dt r f s hr hh ho hcl hb hne
    have hsame {c : Current} {start : Nat} (h : c.txEnd start + r.time ≤ p.now) :
        ({ p with now := max p.now (c.txEnd start + r.time) } : State) = p := by rw [max_eq_left h]
    refine ⟨hidle, fun c start hatt => (hatts c start hatt).1, fun c start hatt hd h1 h2 h => ?_,
      fun c start hatt hd hs h1 h2 k1 k2 k3 => ?_⟩
    · have := ((hatts c start hatt).2 hd (max_le h2 (by omega))).1 h
      rwa [hsame h1] at this
    · intro h sent gives
      have hmatch := ((hatts c start hatt).2 hd (max_le h2 (by omega))).2 k1 k2 k3
      rw [hsame h1, ackArrives_eq (c := c) (by simpa [heard, p] using hatt.2.1)] at hmatch
      have hcounters : s.link.counters = (heard f p).link.counters := by simp [heard, p]
      have hgives : gives (ownerSent c.frame sent) := by
        show exec (.receiveAck dt r) s = .next (settle false p (ownerSent c.frame sent))
        rw [hmatch]
        simp only [sent, hcounters, h]
        rfl
      have hask (n : Nat) : askOfFrame sent n = askOfFrame s n := by simp [askOfFrame, sent, h, heard, p]
      have hfind (i : Nat) : findSupply sent i = findSupply s i := by
        simp [findSupply, sent, h, heard, p, ownAddress, cfg]
      have hsent : sent.control.station.speaks = true := by simpa [sent, h, heard, p] using hs
      have hcfg : cfg sent = cfg s := by simp [cfg, sent, h, heard, p]
      refine ⟨fun rid amount minimum id hbody => ⟨fun a ha => ?_, fun ha => ?_⟩,
        fun rid id amount v hbody => ⟨fun x hx hopen hv => ?_, fun hno => ?_⟩, fun pl hbody hk hk' => ?_⟩
      · have e : ownerSent c.frame sent = { sent with engine := { p.engine with asks := s.engine.asks.map fun b =>
            if b.supplier = a.supplier then { b with state := .asked (p.now + 125 * (cfg s).askTimeout) } else b } } := by
          simp only [ownerSent, hbody, hask, ha, updateAsk, hcfg, beq_iff_eq]
          simp [sent, h, heard, p, ms]
        rw [← e]
        exact hgives
      · rw [show ownerSent c.frame sent = sent by simp only [ownerSent, hbody, hask, ha]] at hgives
        exact hgives
      · have e : ownerSent c.frame sent = confirmGrant x sent := by
          simp only [ownerSent, hbody, grantRecord_of_found ((hfind id).trans hx) hopen hv]
        rw [e, confirmGrant_eq ((hfind id).trans hx) hopen hsent] at hgives
        have hcp : s.engine.changePending = sent.engine.changePending := by simp [sent, h, heard, p]
        rw [hcp]
        exact hgives
      · have e : ownerSent c.frame sent = sent := by
          simp only [ownerSent, hbody, grantRecord_of_none (s := sent) (i := id) (v := v) (by rwa [hfind])]
        rw [e] at hgives
        exact hgives
      · rw [ownerSent_other hbody hk hk'] at hgives
        exact hgives
  · refine ⟨fun rid amount minimum id hb => ⟨fun a ha hf => ?_, fun ha => ?_⟩,
      fun rid id amount v hb => ⟨fun x hx hst hv => ?_, fun x a w hx hst hv hne => ?_, fun hno => ?_⟩,
      fun pl hb hk => ownerGivenUp_other hb hk, fun hb => ownerGivenUp_declare hb, fun tag hb hl => ?_⟩
    · rw [show ownerGivenUp f q = failAsk a.supplier q by simp only [ownerGivenUp, hb, ha], failAsk_of_found hf]
    · simp only [ownerGivenUp, hb, ha]
    · have ho : x.isOpenGrant = true := by simp [Record.isOpenGrant, hst]
      rw [show ownerGivenUp f q = undoGrant x q by simp only [ownerGivenUp, hb, grantRecord_of_found hx ho hv],
        undoGrant_provisional hx hst hs]
    · have ho : x.isOpenGrant = true := by simp [Record.isOpenGrant, hst]
      rw [show ownerGivenUp f q = undoGrant x q by simp only [ownerGivenUp, hb, grantRecord_of_found hx ho hv],
        undoGrant_raising hx hst hne hs]
    · simp only [ownerGivenUp, hb, grantRecord_of_none hno]
    · intro t
      have ht : t = enterOffline { q with engine := { q.engine with lastInstant := some q.now } } := ownerGivenUp_final hb
      obtain ⟨_, _, h, e, -⟩ := enterOffline_spec { q with engine := { q.engine with lastInstant := some q.now } }
      obtain ⟨h1, h2⟩ := enterOffline_host_of_leave
        (s := { q with engine := { q.engine with lastInstant := some q.now } }) (tag := tag) hl
      refine ⟨by rw [ht, e], by rw [ht, e], by rw [ht]; exact h1, ?_, by rw [ht, e], by rw [ht]; exact h2, by rw [ht, e]⟩
      rw [ht, hasEvent_enterOffline]
      rfl

end Sys2Proof.Machine
end

section
/-! SUPPORT. Joining: the first DECLARE at the head of the empty queue. -/

namespace Sys2Proof.Machine

/-- A station state that differs is marked. -/
theorem hasEvent_stateChanged {b : Bool} {p m : State} (hl : m.control.station ≠ .loading)
    (hd : p.control.station ≠ m.control.station) : hasEvent .stateChanged (settle b p m) = true := by
  obtain ⟨i, x, e⟩ := settle_eq (b := b) (p := p) hl
  have hf : (settle b p m).host.flags = (engineSettle p m).host.flags ||| changeBits p (engineSettle p m) := by rw [e]
  have hbit : Event.stateChanged.bit.getLsbD Event.stateChanged.index = true := by decide
  rw [hasEvent_of_or hf, changeBits, if_neg (by rwa [engineSettle_control]), BitVec.getLsbD_or, hbit]
  simp

/-- Nothing falls due by change while a DECLARE is due. -/
theorem builderTurn_of_declareDue (p : State) {s : State} (hd : s.engine.declareDue = true) :
    ∃ c, builderTurn p s = placeDeclare { s with engine := { s.engine with changePending := c } } := by
  have hdue (t : State) (ht : t.engine.declareDue = true) : dueByChange t = t := by simp [dueByChange, ht]
  unfold builderTurn
  rcases noteDeclared_cases p s with e | e
  · rw [e, hdue _ hd]
    exact ⟨s.engine.changePending, rfl⟩
  · rw [e, noteChange]
    split
    · exact ⟨true, congrArg placeDeclare (hdue _ hd)⟩
    · exact ⟨s.engine.changePending, congrArg placeDeclare (hdue _ hd)⟩

theorem checkDrain_of_settled {s : State} (h : s.engine.role = .idle ∨ s.engine.role = .taker ∨ s.engine.role = .supplier) :
    checkDrain s = s := by
  unfold checkDrain
  rcases h with h | h | h <;> rw [h]

theorem startRole_settled (s : State) : startRole s = .idle ∨ startRole s = .taker ∨ startRole s = .supplier := by
  unfold startRole
  split
  · exact .inr (.inl rfl)
  · split
    · exact .inl rfl
    · exact .inr (.inl rfl)
    · split
      · exact .inr (.inr rfl)
      · exact .inl rfl

theorem readRail_host (rail : Nat) (s : State) : (readRail rail s).host = s.host := by
  unfold readRail
  dsimp only
  split
  · rfl
  · split
    · rfl
    · split <;> rfl

/-- A REJOIN in progress completes as the station joins. -/
theorem enterJoined_host (incarnation : Byte) (rail : Nat) {s : State} {tag : Byte} (h : s.host.long = some ⟨.rejoin, tag⟩) :
    (enterJoined incarnation rail s).host.long = none
      ∧ (enterJoined incarnation rail s).host.results = s.host.results ++ [⟨tag, 5, .done, []⟩] := by
  unfold enterJoined
  dsimp only
  split
  · rename_i tag' hl
    rw [readRail_host] at hl
    have ht : tag = tag' := by
      have : s.host.long = some ⟨.rejoin, tag'⟩ := hl
      rw [h] at this
      simpa using this
    rw [completeLong_long, completeLong_results, longResult, readRail_host]
    refine ⟨rfl, ?_⟩
    show s.host.results ++ (s.host.long.map _).toList = _
    rw [h]
    rfl
  · rename_i hl
    rw [readRail_host] at hl
    exact absurd h (hl tag)

/-- With no long request, joining completes none. -/
theorem enterJoined_host_of_none (incarnation : Byte) (rail : Nat) {s : State} (h : s.host.long = none) :
    (enterJoined incarnation rail s).host = s.host := by
  unfold enterJoined
  dsimp only
  split
  · rename_i tag' hl
    rw [readRail_host] at hl
    have : s.host.long = some ⟨.rejoin, tag'⟩ := hl
    rw [h] at this
    cases this
  · exact readRail_host _ _

/-- The end of a happening with no record and no ask, an empty queue and a DECLARE due: the DECLARE is placed at its head. -/
theorem settle_firstDeclare {b : Bool} {p m : State} (hs : m.control.station.speaks = true)
    (hp : p.link.normal = []) (hn : m.link.normal = []) (ht : m.engine.table = [])
    (hd : m.engine.declareDue = true) (hf : m.engine.finalDue = false)
    (hr : m.engine.role = .idle ∨ m.engine.role = .taker ∨ m.engine.role = .supplier) :
    let t := settle b p m
    t.engine.role = m.engine.role ∧ t.link.normal.head? = some ⟨0, .declare false, 0⟩
      ∧ t.host.long = m.host.long ∧ t.host.results = m.host.results := by
  intro t
  have hl := not_loading_of_speaks hs
  have hbn : beforeNotices p m = trimExcess (planRecalls p m) := if_pos (by simp [hp, normalPlaces])
  have hb : Bargains false True m (beforeNotices p m) := hbn ▸ ((Bargains.refl m).planRecalls p).trimExcess
  have htable : (beforeNotices p m).engine.table = [] := by
    rw [List.eq_nil_iff_forall_not_mem]
    intro r hr
    obtain ⟨q, hq, -⟩ := hb.traced r hr
    rw [ht] at hq
    cases hq
  have hnormal : (beforeNotices p m).link.normal = [] := by
    have := hb.queue.sublist
    rwa [hn, List.sublist_nil] at this
  have hpl : placeNotices (beforeNotices p m) = beforeNotices p m := by rw [placeNotices, htable]; rfl
  have hdr : checkDrain (beforeNotices p m) = beforeNotices p m := checkDrain_of_settled (by rw [hb.role]; exact hr)
  have hba : beforeAsks p m = builderTurn p (beforeNotices p m) := by rw [beforeAsks, hpl, hdr]
  obtain ⟨c, e⟩ := builderTurn_of_declareDue p (s := beforeNotices p m) (hb.declareDue.trans hd)
  rw [placeDeclare_tail (by exact hb.declareDue.trans hd) (by simp [hnormal])
    (by simp [normalRoom, hnormal, normalPlaces])] at e
  obtain ⟨hrole, -, -, -, hhost⟩ := askFrameOf_engineSettle (p := p) hs
  obtain ⟨asks, hasks, -⟩ := asksBehind_engineSettle (p := p) hs
  rw [hba, e] at hrole hhost hasks
  obtain ⟨i, x, et⟩ := settle_eq (b := b) (p := p) hl
  refine ⟨?_, ?_, ?_, ?_⟩
  · rw [show t.engine = _ from settle_engine hl, hrole]
    exact hb.role
  · rw [show t.link = _ from settle_link hl, hasks]
    simp [hnormal, hb.finalDue, hf]
  · show (settle b p m).host.long = _
    rw [et, hhost]
    exact hb.long
  · show (settle b p m).host.results = _
    rw [et, hhost]
    exact hb.results

/-- Settles O24: the entry to JOINED, and the DECLARE it makes due. -/
theorem listenEndJoins : Obligations.ListenEndJoins := by
  intro dt e rail incarnation s hr hst he hn ht ha
  have hexec := exec_happens (i := .listenTimerEnd dt incarnation rail) rfl hr
  have hdone : listenDone incarnation rail (advance dt s) = enterJoined incarnation rail (reach e (advance dt s)) := by
    simp [listenDone, hst, he]
  rw [hdone] at hexec
  obtain ⟨_, _, _, em, -⟩ := enterJoined_eq incarnation rail (reach e (advance dt s))
  have hms : (enterJoined incarnation rail (reach e (advance dt s))).control.station.speaks = true := by rw [em]; rfl
  have hrole : startRole (reach e (advance dt s)) = startRole s := by simp [startRole, cfg]
  obtain ⟨h1, h2, h3, h4⟩ := settle_firstDeclare (b := false) (p := advance dt s) hms (by simpa using hn)
    (by rw [em]; simpa using hn) (by rw [em]; simpa using ht) (by rw [em]) (by rw [em]) (by rw [em]; exact startRole_settled _)
  refine ⟨_, hexec, ?_, ?_, ?_, ?_, ?_, ?_, h2, ?_, ?_, fun tag hl => ?_, fun hl => ?_⟩
  · rw [settle_now, em]; simp
  · rw [settle_control, em]
  · rw [settle_control, em]
  · rw [settle_control, em]
  · rw [settle_control, em]; simp
  · rw [h1, em]; exact hrole
  · rw [settle_peers, em]; simp
  · refine hasEvent_stateChanged (not_loading_of_speaks hms) ?_
    rw [em, advance_control, hst]
    exact nofun
  · obtain ⟨k1, k2⟩ := enterJoined_host incarnation rail (s := reach e (advance dt s)) (tag := tag) (by simpa using hl)
    exact ⟨h3.trans k1, h4.trans (k2.trans (by simp))⟩
  · have k := enterJoined_host_of_none incarnation rail (s := reach e (advance dt s)) (by simpa using hl)
    rw [k] at h3 h4
    exact ⟨h3.trans (by simpa using hl), h4.trans (by simp)⟩

end Sys2Proof.Machine
end

section
/-! SUPPORT. How records age at the end of a happening: which differences CONTRACTS_CHANGED and a pending change tell, and why
none of them is undone. -/

namespace Sys2Proof.Machine

/-! ### The ageing of records -/

/-- y is r or what the end of a happening makes of it: the amount falls or stands, the revision stands with it, and ACTIVE is
left for good. -/
def Record.Ages (r y : Record) : Prop :=
  y.supplier = r.supplier ∧ y.id = r.id ∧ y.amount ≤ r.amount ∧ (y.amount = r.amount → y.revision = r.revision)
    ∧ (y.state = r.state ∨ (r.state = .active ∧ y.state ≠ .active))

/-- The difference R16 tells is none. -/
def Record.Seen (y r : Record) : Prop := y.amount = r.amount ∧ y.revision = r.revision ∧ y.state.code = r.state.code

/-- The difference R32 tells is none. -/
def Record.Listed (y r : Record) : Prop := y.amount = r.amount ∧ (y.state = .closing → r.state = .closing)

theorem Record.Ages.refl (r : Record) : r.Ages r := ⟨rfl, rfl, le_refl _, fun _ => rfl, .inl rfl⟩

theorem Record.Ages.trans {r y z : Record} (h : r.Ages y) (k : y.Ages z) : r.Ages z := by
  obtain ⟨h1, h2, h3, h4, h5⟩ := h
  obtain ⟨k1, k2, k3, k4, k5⟩ := k
  refine ⟨k1.trans h1, k2.trans h2, k3.trans h3, fun e => ?_, ?_⟩
  · have hy : z.amount = y.amount := le_antisymm k3 (by omega)
    exact (k4 hy).trans (h4 (hy.symm.trans e))
  · rcases h5 with h5 | ⟨h5, h6⟩
    · rcases k5 with k5 | ⟨k5, k6⟩
      · exact .inl (k5.trans h5)
      · exact .inr ⟨h5 ▸ k5, k6⟩
    · rcases k5 with k5 | ⟨k5, -⟩
      · exact .inr ⟨h5, k5 ▸ h6⟩
      · exact absurd k5 h6

theorem RecordState.code_eq_active {x : RecordState} (h : x.code = RecordState.active.code) : x = .active := by
  cases x <;> simp_all [RecordState.code]

/-- A visible difference stands. -/
theorem Record.seen_trans {r y z : Record} (h : r.Ages y) (k : y.Ages z) : z.Seen r ↔ y.Seen r ∧ z.Seen y := by
  obtain ⟨-, -, h3, h4, h5⟩ := h
  obtain ⟨-, -, k3, k4, k5⟩ := k
  constructor
  · rintro ⟨e1, e2, e3⟩
    have hy : y.amount = r.amount := le_antisymm h3 (e1 ▸ k3)
    have hz : z.amount = y.amount := e1.trans hy.symm
    have hcode : y.state.code = r.state.code := by
      rcases h5 with h5 | ⟨h5, h6⟩
      · rw [h5]
      · rcases k5 with k5 | ⟨k5, -⟩
        · rw [h5] at e3
          exact absurd (k5 ▸ RecordState.code_eq_active e3) h6
        · exact absurd k5 h6
    exact ⟨⟨hy, h4 hy, hcode⟩, hz, k4 hz, e3.trans hcode.symm⟩
  · rintro ⟨⟨a1, a2, a3⟩, b1, b2, b3⟩
    exact ⟨b1.trans a1, b2.trans a2, b3.trans a3⟩

/-- A difference that makes a DECLARE change pending stands. -/
theorem Record.listed_trans {r y z : Record} (h : r.Ages y) (k : y.Ages z) : z.Listed r ↔ y.Listed r ∧ z.Listed y := by
  obtain ⟨-, -, h3, -, h5⟩ := h
  obtain ⟨-, -, k3, -, k5⟩ := k
  constructor
  · rintro ⟨e1, e2⟩
    have hy : y.amount = r.amount := le_antisymm h3 (e1 ▸ k3)
    refine ⟨⟨hy, fun hc => ?_⟩, e1.trans hy.symm, fun hc => ?_⟩
    · rcases k5 with k5 | ⟨k5, -⟩
      · exact e2 (k5.trans hc)
      · rw [hc] at k5; cases k5
    · have hr := e2 hc
      rcases h5 with h5 | ⟨h5, -⟩
      · exact h5.trans hr
      · rw [hr] at h5; cases h5
  · rintro ⟨⟨a1, a2⟩, b1, b2⟩
    exact ⟨b1.trans a1, fun hc => a2 (b2 hc)⟩

/-! ### Tables that age -/

/-- Every record of the later table is an earlier one, aged. -/
def Aged (l m : List Record) : Prop := ∀ y ∈ m, ∃ r ∈ l, r.Ages y

/-- Every record stands, with no difference of the kind. -/
def Stays (same : Record → Record → Prop) (l m : List Record) : Prop :=
  ∀ r ∈ l, ∃ y ∈ m, y.supplier = r.supplier ∧ y.id = r.id ∧ same y r

theorem Aged.refl (l : List Record) : Aged l l := fun y hy => ⟨y, hy, .refl y⟩

theorem Aged.trans {l m n : List Record} (h : Aged l m) (k : Aged m n) : Aged l n := by
  intro z hz
  obtain ⟨y, hy, ky⟩ := k z hz
  obtain ⟨r, hr, hy'⟩ := h y hy
  exact ⟨r, hr, hy'.trans ky⟩

theorem Stays.refl {same : Record → Record → Prop} (hs : ∀ r, same r r) (l : List Record) : Stays same l l :=
  fun r hr => ⟨r, hr, rfl, rfl, hs r⟩

/-- With distinct keys a record has one older form. -/
theorem Aged.older {l m : List Record} (h : Aged l m) (hd : Distinct l) {r y : Record} (hr : r ∈ l) (hy : y ∈ m)
    (hk : y.supplier = r.supplier ∧ y.id = r.id) : r.Ages y := by
  obtain ⟨q, hq, ha⟩ := h y hy
  have : q = r := hd.unique hq hr (ha.1.symm.trans hk.1) (ha.2.1.symm.trans hk.2)
  exact this ▸ ha

/-- A kind of difference that stands, stands over tables that age. -/
theorem stays_trans {same : Record → Record → Prop}
    (hsame : ∀ r y z : Record, r.Ages y → y.Ages z → (same z r ↔ same y r ∧ same z y)) {l m n : List Record}
    (hl : Distinct l) (hm : Distinct m) (h : Aged l m) (k : Aged m n) :
    Stays same l n ↔ Stays same l m ∧ Stays same m n := by
  constructor
  · intro hn
    constructor
    · intro r hr
      obtain ⟨z, hz, e1, e2, hs⟩ := hn r hr
      obtain ⟨y, hy, ky⟩ := k z hz
      have hk : y.supplier = r.supplier ∧ y.id = r.id := ⟨ky.1.symm.trans e1, ky.2.1.symm.trans e2⟩
      exact ⟨y, hy, hk.1, hk.2, ((hsame r y z (h.older hl hr hy hk) ky).mp hs).1⟩
    · intro y hy
      obtain ⟨r, hr, hry⟩ := h y hy
      obtain ⟨z, hz, e1, e2, hs⟩ := hn r hr
      have hk : z.supplier = y.supplier ∧ z.id = y.id := ⟨e1.trans hry.1.symm, e2.trans hry.2.1.symm⟩
      exact ⟨z, hz, hk.1, hk.2, ((hsame r y z hry (k.older hm hy hz hk)).mp hs).2⟩
  · rintro ⟨h1, h2⟩ r hr
    obtain ⟨y, hy, e1, e2, hs1⟩ := h1 r hr
    obtain ⟨z, hz, f1, f2, hs2⟩ := h2 y hy
    refine ⟨z, hz, f1.trans e1, f2.trans e2, ?_⟩
    exact (hsame r y z (h.older hl hr hy ⟨e1, e2⟩) (k.older hm hy hz ⟨f1, f2⟩)).mpr ⟨hs1, hs2⟩

/-! ### Marks -/

/-- The table has aged from s to t, and the marks tell its differences. -/
def Marked (s t : State) : Prop :=
  Aged s.engine.table t.engine.table ∧ Distinct t.engine.table ∧ t.control = s.control
    ∧ (hasEvent .contractsChanged t = true ↔ hasEvent .contractsChanged s = true
        ∨ ¬ Stays Record.Seen s.engine.table t.engine.table)
    ∧ (t.engine.changePending = true ↔ s.engine.changePending = true
        ∨ ¬ Stays Record.Listed s.engine.table t.engine.table)

theorem Record.Seen.refl (r : Record) : r.Seen r := ⟨rfl, rfl, rfl⟩
theorem Record.Listed.refl (r : Record) : r.Listed r := ⟨rfl, fun h => h⟩

/-- Where the table and the marks stand nothing is to be told. -/
theorem marked_of_same {s t : State} (hd : Distinct s.engine.table) (ht : t.engine.table = s.engine.table)
    (hc : t.control = s.control) (hf : t.host.flags = s.host.flags) (hp : t.engine.changePending = s.engine.changePending) :
    Marked s t := by
  refine ⟨ht ▸ Aged.refl _, ht ▸ hd, hc, ?_, ?_⟩
  · rw [hasEvent_congr hf, ht]
    exact ⟨.inl, fun h => h.resolve_right (not_not_intro (.refl .refl _))⟩
  · rw [hp, ht]
    exact ⟨.inl, fun h => h.resolve_right (not_not_intro (.refl .refl _))⟩

theorem Marked.trans {s t u : State} (hs : Distinct s.engine.table) (h : Marked s t) (k : Marked t u) : Marked s u := by
  obtain ⟨h1, h2, h3, h4, h5⟩ := h
  obtain ⟨k1, k2, k3, k4, k5⟩ := k
  refine ⟨h1.trans k1, k2, k3.trans h3, ?_, ?_⟩
  · rw [k4, h4, stays_trans (fun _ _ _ => Record.seen_trans) hs h2 h1 k1, not_and_or, or_assoc]
  · rw [k5, h5, stays_trans (fun _ _ _ => Record.listed_trans) hs h2 h1 k1, not_and_or, or_assoc]

/-- The record of a place stays or differs as the one put there does. -/
theorem stays_replace {same : Record → Record → Prop} (hrefl : ∀ r, same r r) {before after : List Record} {r n : Record}
    (hd : Distinct (before ++ n :: after)) (hn : n.supplier = r.supplier ∧ n.id = r.id) :
    Stays same (before ++ r :: after) (before ++ n :: after) ↔ same n r := by
  constructor
  · intro h
    obtain ⟨y, hy, e1, e2, hs⟩ := h r (by simp)
    have : y = n := hd.unique hy (by simp) (e1.trans hn.1.symm) (e2.trans hn.2.symm)
    exact this ▸ hs
  · intro h q hq
    by_cases e : q = r
    · exact ⟨n, by simp, e ▸ hn.1, e ▸ hn.2, e ▸ h⟩
    · refine ⟨q, ?_, rfl, rfl, hrefl q⟩
      simp only [List.mem_append, List.mem_cons] at hq ⊢
      rcases hq with hq | hq | hq
      · exact .inl hq
      · exact absurd hq e
      · exact .inr (.inr hq)

end Sys2Proof.Machine
end

section
/-! SUPPORT. The marks of the end of a happening: what its recalls, trims and notices tell, and what the builder adds. -/

namespace Sys2Proof.Machine

/-! ### One record -/

section Step

variable {s t : State} {r n : Record}

theorem hasEvent_amended (l : List Record) (c f : Bool) (s : State) :
    hasEvent .contractsChanged (amended l c f s) = (hasEvent .contractsChanged s || f) := by
  cases f with
  | true =>
    rw [hasEvent_of_bit (d := .contractsChanged) (s := s) rfl]
    simp
  | false =>
    rw [Bool.or_false]
    exact hasEvent_congr rfl _

theorem visible_iff : r.visible = n.visible ↔ n.Seen r := by
  simp only [Record.visible, Record.Seen, Prod.mk.injEq]
  exact ⟨fun ⟨a, b, c⟩ => ⟨a.symm, b.symm, c.symm⟩, fun ⟨a, b, c⟩ => ⟨a.symm, b.symm, c.symm⟩⟩

theorem amends_iff : r.amends n = true ↔ ¬ n.Listed r := by
  simp only [Record.amends, Record.Listed, Record.isClosing, decide_eq_true_eq, decide_eq_false_iff_not, not_and_or,
    Classical.not_imp, ne_comm (a := r.amount)]

/-- A step over a record: the marks tell it, and every other record stands. -/
def Steps (r : Record) (s t : State) : Prop :=
  Marked s t ∧ ∀ q ∈ s.engine.table, ¬ (q.supplier = r.supplier ∧ q.id = r.id) → q ∈ t.engine.table

/-- A record replaced by what it becomes. -/
theorem steps_putRecord (hd : Distinct s.engine.table) (hs : s.control.station.speaks = true) (hr : r ∈ s.engine.table)
    (hn : r.Ages n) : Steps r s (putRecord n s) := by
  obtain ⟨before, after, ht⟩ := List.append_of_mem hr
  have hk : n.supplier = r.supplier ∧ n.id = r.id := ⟨hn.1, hn.2.1⟩
  rw [ht] at hd
  have hd' : Distinct (before ++ n :: after) := hd.replace hk
  rw [putRecord_at ht hd hk hs]
  refine ⟨⟨?_, hd', rfl, ?_, ?_⟩, fun q hq hne => ?_⟩
  · rw [ht]
    intro y hy
    rcases List.mem_append.mp hy with hy | hy
    · exact ⟨y, by simp [hy], .refl y⟩
    · rcases List.mem_cons.mp hy with rfl | hy
      · exact ⟨r, by simp, hn⟩
      · exact ⟨y, by simp [hy], .refl y⟩
  · rw [hasEvent_amended, ht, Bool.or_eq_true]
    exact or_congr_right ((decide_eq_true_iff.trans (not_congr visible_iff)).trans
      (not_congr (stays_replace .refl hd' hk).symm))
  · show (_ || _) = true ↔ _
    rw [ht, Bool.or_eq_true, amends_iff, or_comm]
    exact or_congr_right (not_congr (stays_replace .refl hd' hk).symm)
  · rw [ht] at hq
    show q ∈ before ++ n :: after
    simp only [List.mem_append, List.mem_cons] at hq ⊢
    rcases hq with hq | rfl | hq
    · exact .inl hq
    · exact absurd ⟨rfl, rfl⟩ hne
    · exact .inr (.inr hq)

/-- A record that goes. -/
theorem steps_dropRecord (hd : Distinct s.engine.table) (hs : s.control.station.speaks = true) (hr : r ∈ s.engine.table) :
    Steps r s (dropRecord r.supplier r.id s) := by
  obtain ⟨before, after, ht⟩ := List.append_of_mem hr
  rw [ht] at hd
  have hgone (same : Record → Record → Prop) : ¬ Stays same s.engine.table (before ++ after) := by
    intro h
    obtain ⟨y, hy, e1, e2, -⟩ := h r hr
    have hy' : y ∈ before ++ r :: after := by
      simp only [List.mem_append, List.mem_cons] at hy ⊢
      exact hy.imp_right .inr
    have : y = r := hd.unique hy' (by simp) e1 e2
    subst this
    obtain ⟨-, hra, hba⟩ := List.pairwise_append.mp hd
    rcases List.mem_append.mp hy with hy | hy
    · exact hba y hy y List.mem_cons_self ⟨rfl, rfl⟩
    · exact (List.pairwise_cons.mp hra).1 y hy ⟨rfl, rfl⟩
  rw [dropRecord_at ht hd hs]
  refine ⟨⟨?_, ?_, rfl, ?_, ?_⟩, fun q hq hne => ?_⟩
  · rw [ht]
    intro y hy
    refine ⟨y, ?_, .refl y⟩
    rcases List.mem_append.mp hy with hy | hy <;> simp [hy]
  · exact hd.sublist (List.sublist_append_iff.mpr
      ⟨before, after, rfl, .refl _, List.sublist_cons_self r after⟩)
  · rw [hasEvent_amended, Bool.or_true]
    exact ⟨fun _ => .inr (hgone _), fun _ => rfl⟩
  · exact ⟨fun _ => .inr (hgone _), fun _ => rfl⟩
  · rw [ht] at hq
    show q ∈ before ++ after
    simp only [List.mem_append, List.mem_cons] at hq ⊢
    rcases hq with hq | rfl | hq
    · exact .inl hq
    · exact absurd ⟨rfl, rfl⟩ hne
    · exact .inr hq

/-- A change that is none of the table's and sets no mark. -/
theorem Steps.plain {u : State} (h : Steps r s t) (ht : u.engine.table = t.engine.table) (hc : u.control = t.control)
    (hf : u.host.flags = t.host.flags) (hp : u.engine.changePending = t.engine.changePending) : Steps r s u := by
  obtain ⟨⟨h1, h2, h3, h4, h5⟩, h6⟩ := h
  exact ⟨⟨ht ▸ h1, ht ▸ h2, hc.trans h3, by rw [hasEvent_congr hf, ht, h4], by rw [hp, ht, h5]⟩, by rwa [ht]⟩

theorem Steps.refl (hd : Distinct s.engine.table) (r : Record) : Steps r s s :=
  ⟨marked_of_same hd rfl rfl rfl rfl, fun _ hq _ => hq⟩

/-- A change that is none of the table's and sets no mark, before. -/
theorem Steps.after {u : State} (h : Steps r t u) (ht : t.engine.table = s.engine.table) (hc : t.control = s.control)
    (hf : t.host.flags = s.host.flags) (hp : t.engine.changePending = s.engine.changePending) : Steps r s u := by
  obtain ⟨⟨h1, h2, h3, h4, h5⟩, h6⟩ := h
  exact ⟨⟨ht ▸ h1, h2, h3.trans hc, by rw [h4, hasEvent_congr hf, ht], by rw [h5, hp, ht]⟩, ht ▸ h6⟩

end Step

/-! ### A fold of steps -/

/-- Steps over records of the table, each over its own, are told by the marks. -/
theorem marked_foldl {g : State → Record → State} {rs : List Record} (hrs : Distinct rs)
    (hg : ∀ t r, r ∈ rs → r ∈ t.engine.table → Distinct t.engine.table → t.control.station.speaks = true → Steps r t (g t r))
    {s : State} (hd : Distinct s.engine.table) (hs : s.control.station.speaks = true) (hm : ∀ r ∈ rs, r ∈ s.engine.table) :
    Marked s (rs.foldl g s) := by
  induction rs generalizing s with
  | nil => exact marked_of_same hd rfl rfl rfl rfl
  | cons r rs ih =>
    obtain ⟨hr, hrest⟩ := List.pairwise_cons.mp hrs
    obtain ⟨h1, h2⟩ := hg s r List.mem_cons_self (hm r List.mem_cons_self) hd hs
    refine h1.trans hd (ih hrest (fun t x hx => hg t x (List.mem_cons_of_mem r hx)) h1.2.1 ?_ fun x hx => ?_)
    · rw [h1.2.2.1]; exact hs
    · exact h2 x (hm x (List.mem_cons_of_mem r hx)) fun ⟨e1, e2⟩ => hr x hx ⟨e1.symm, e2.symm⟩

section Stages

variable {s : State} {r : Record}

theorem steps_startRecall (n : Nat) (hd : Distinct s.engine.table) (hs : s.control.station.speaks = true)
    (hr : r ∈ s.engine.table) (ha : r.isActive = true) : Steps r s (startRecall n r s) :=
  steps_putRecord hd hs hr ⟨rfl, rfl, le_refl _, fun _ => rfl, .inr ⟨by simpa [Record.isActive] using ha, nofun⟩⟩

theorem removeRaise_flags (r : Record) (s : State) : (removeRaise r s).host.flags = s.host.flags := by
  unfold removeRaise
  split
  · obtain ⟨_, e⟩ := removeAsk_eq r.supplier s
    rw [e]
  · rfl

theorem removeRaise_control (r : Record) (s : State) : (removeRaise r s).control = s.control := by
  unfold removeRaise
  split
  · obtain ⟨_, e⟩ := removeAsk_eq r.supplier s
    rw [e]
  · rfl

theorem steps_closeTake (k : Notice) (hd : Distinct s.engine.table) (hs : s.control.station.speaks = true)
    (hr : r ∈ s.engine.table) (ha : r.isActive = true) : Steps r s (closeTake k r s) :=
  (steps_putRecord (n := { r with state := .closing, owed := some k }) hd hs hr
    ⟨rfl, rfl, le_refl _, fun _ => rfl, .inr ⟨by simpa [Record.isActive] using ha, nofun⟩⟩).plain
    (removeRaise_table _ _) (removeRaise_control _ _) (removeRaise_flags _ _) (removeRaise_changePending _)

theorem steps_trimOne (hd : Distinct s.engine.table) (hs : s.control.station.speaks = true)
    (hr : r ∈ s.engine.table) : Steps r s (trimOne s r) := by
  unfold trimOne
  split
  · exact .refl hd r
  · rename_i hn
    simp only [not_or] at hn
    obtain ⟨hheld, hactive, -⟩ := hn
    have ha : r.isActive = true := by
      simp only [Bool.not_eq_false, Bool.and_eq_true] at hactive
      exact hactive.2
    dsimp only
    split
    · exact steps_closeTake .release hd hs hr ha
    · rename_i hlt
      refine steps_putRecord hd hs hr ⟨rfl, rfl, Nat.sub_le _ _, fun e => ?_, .inl rfl⟩
      dsimp only at e
      omega

theorem steps_placeNotice (hd : Distinct s.engine.table) (hs : s.control.station.speaks = true)
    (hr : r ∈ s.engine.table) : Steps r s (placeNotice s r) := by
  unfold placeNotice
  split
  · exact .refl hd r
  · rename_i k _
    split
    · have hen : (enqueue (noticeFrame r k) s).engine = s.engine := enqueue_engine _ s
      have hframe : (enqueue (noticeFrame r k) s).control = s.control ∧ (enqueue (noticeFrame r k) s).host = s.host := by
        unfold enqueue
        split <;> exact ⟨rfl, rfl⟩
      obtain ⟨hc, hh⟩ := hframe
      dsimp only
      split
      · exact (steps_dropRecord (s := enqueue (noticeFrame r k) s) (by rwa [hen]) (by rwa [hc]) (by rwa [hen])).after
          (by rw [hen]) hc (by rw [hh]) (by rw [hen])
      · exact (steps_putRecord (s := enqueue (noticeFrame r k) s) (r := r) (n := { r with owed := none }) (by rwa [hen])
          (by rwa [hc]) (by rwa [hen]) ⟨rfl, rfl, le_refl _, fun _ => rfl, .inl rfl⟩).after
          (by rw [hen]) hc (by rw [hh]) (by rw [hen])
    · exact .refl hd r

/-- The planning order takes each record once. -/
theorem distinct_planOrder (p : State) (hd : Distinct s.engine.table) : Distinct (planOrder p s) := by
  have hrev (l : List Record) (h : Distinct l) : Distinct l.reverse :=
    List.pairwise_reverse.mpr (h.imp fun hx hk => hx ⟨hk.1.symm, hk.2.symm⟩)
  have hact : Distinct (s.engine.table.filter fun r => r.isSupply && r.isActive) := hd.sublist List.filter_sublist
  refine List.pairwise_append.mpr ⟨hrev _ (hact.sublist List.filter_sublist), hrev _ (hact.sublist List.filter_sublist),
    fun x hx y hy hk => ?_⟩
  rw [List.mem_reverse, List.mem_filter] at hx hy
  have : x = y := hact.unique hx.1 hy.1 hk.1 hk.2
  subst this
  rw [hy.2] at hx
  simp at hx

theorem isActive_of_mem_planOrder {p : State} (h : r ∈ planOrder p s) : r.isActive = true := by
  simp only [planOrder, List.mem_append, List.mem_reverse, List.mem_filter, Bool.and_eq_true] at h
  rcases h with ⟨⟨-, -, h⟩, -⟩ | ⟨⟨-, -, h⟩, -⟩ <;> exact h

theorem marked_planRecalls (p : State) (hd : Distinct s.engine.table) (hs : s.control.station.speaks = true) :
    Marked s (planRecalls p s) := by
  unfold planRecalls
  split
  · refine marked_foldl (distinct_planOrder p hd) (fun t r hr hm ht hts => ?_) hd hs fun r hr => (mem_planOrder hr).1
    unfold planOne
    split
    · exact .refl ht r
    · exact steps_startRecall _ ht hts hm (isActive_of_mem_planOrder hr)
  · refine marked_foldl (hd.sublist List.filter_sublist) (fun t r hr hm ht hts => ?_) hd hs fun r hr => (List.mem_filter.mp hr).1
    have := (List.mem_filter.mp hr).2
    simp only [Bool.and_eq_true] at this
    exact steps_startRecall 0 ht hts hm this.2
  · exact marked_of_same hd rfl rfl rfl rfl

theorem marked_trimExcess (hd : Distinct s.engine.table) (hs : s.control.station.speaks = true) :
    Marked s (trimExcess s) := by
  unfold trimExcess
  split
  · exact marked_foldl (List.pairwise_reverse.mpr (hd.imp fun hx hk => hx ⟨hk.1.symm, hk.2.symm⟩))
      (fun t r _ hm ht hts => steps_trimOne ht hts hm) hd hs fun r hr => List.mem_reverse.mp hr
  · exact marked_of_same hd rfl rfl rfl rfl

theorem marked_placeNotices (hd : Distinct s.engine.table) (hs : s.control.station.speaks = true) :
    Marked s (placeNotices s) :=
  marked_foldl hd (fun _ _ _ hm ht hts => steps_placeNotice ht hts hm) hd hs fun _ hr => hr

end Stages

end Sys2Proof.Machine
end

section
/-! SUPPORT. The frame of the end of a happening: the flags it adds, and the changes it tells. -/

namespace Sys2Proof.Machine

/-! ### Flags added -/

/-- From s to t flags were added, none of them ROLE_CHANGED or STATE_CHANGED. -/
def Adds (s t : State) : Prop :=
  ∃ f, t.host.flags = s.host.flags ||| f ∧ f.getLsbD Event.roleChanged.index = false
    ∧ f.getLsbD Event.stateChanged.index = false

section Adds

variable {s t u : State}

theorem adds_of_same (h : t.host.flags = s.host.flags) : Adds s t := ⟨0, by rw [h]; simp, rfl, rfl⟩

theorem Adds.trans (h : Adds s t) (k : Adds t u) : Adds s u := by
  obtain ⟨f, h1, h2, h3⟩ := h
  obtain ⟨g, k1, k2, k3⟩ := k
  exact ⟨f ||| g, by rw [k1, h1, BitVec.or_assoc], by rw [BitVec.getLsbD_or, h2, k2]; rfl,
    by rw [BitVec.getLsbD_or, h3, k3]; rfl⟩

theorem adds_bit {e : Event} (he : e ≠ .roleChanged) (he' : e ≠ .stateChanged)
    (h : t.host.flags = s.host.flags ||| e.bit) : Adds s t :=
  ⟨e.bit, h, by rw [Event.getLsbD_bit, decide_eq_false he], by rw [Event.getLsbD_bit, decide_eq_false he']⟩

theorem adds_putRecord (n : Record) (s : State) : Adds s (putRecord n s) := by
  unfold putRecord
  split
  · exact adds_of_same rfl
  · dsimp only
    split <;> split
    · exact adds_of_same (by rw [noteChange_host])
    · exact adds_bit (e := .contractsChanged) nofun nofun (by rw [noteChange_host]; rfl)
    · exact adds_of_same rfl
    · exact adds_bit (e := .contractsChanged) nofun nofun rfl

theorem adds_dropRecords (p : Record → Bool) (s : State) : Adds s (dropRecords p s) := by
  unfold dropRecords
  split
  · exact adds_bit (e := .contractsChanged) nofun nofun (by rw [noteChange_host]; rfl)
  · exact adds_of_same rfl

theorem adds_foldl {g : State → Record → State} (hg : ∀ t r, Adds t (g t r)) (rs : List Record) (s : State) :
    Adds s (rs.foldl g s) := by
  induction rs generalizing s with
  | nil => exact adds_of_same rfl
  | cons r rs ih => exact (hg s r).trans (ih _)

theorem adds_planRecalls (p s : State) : Adds s (planRecalls p s) := by
  unfold planRecalls
  split
  · refine adds_foldl (fun t r => ?_) _ s
    unfold planOne
    split
    · exact adds_of_same rfl
    · exact adds_putRecord _ t
  · exact adds_foldl (fun t r => adds_putRecord _ t) _ s
  · exact adds_of_same rfl

theorem adds_trimExcess (s : State) : Adds s (trimExcess s) := by
  unfold trimExcess
  split
  · refine adds_foldl (fun t r => ?_) _ s
    unfold trimOne
    split
    · exact adds_of_same rfl
    · dsimp only
      split
      · exact (adds_putRecord _ t).trans (adds_of_same (removeRaise_flags _ _))
      · exact adds_putRecord _ t
  · exact adds_of_same rfl

theorem enqueue_host (f : OutFrame) (s : State) : (enqueue f s).host = s.host := by
  unfold enqueue
  split <;> rfl

theorem adds_placeNotices (s : State) : Adds s (placeNotices s) := by
  refine adds_foldl (fun t r => ?_) _ s
  unfold placeNotice
  split
  · exact adds_of_same rfl
  · split
    · dsimp only
      split
      · exact (adds_of_same (by rw [enqueue_host])).trans (adds_dropRecords _ _)
      · exact (adds_of_same (by rw [enqueue_host])).trans (adds_putRecord _ _)
    · exact adds_of_same rfl

/-- The drain's end tells its request alone. -/
theorem checkDrain_flags (s : State) : (checkDrain s).host.flags = s.host.flags
    ∨ (checkDrain s).host.flags = s.host.flags ||| Event.resultReady.bit := by
  have ends (x : Target) (u : Purpose) : (endDrain x u s).host.flags = s.host.flags
      ∨ (endDrain x u s).host.flags = s.host.flags ||| Event.resultReady.bit := by
    unfold endDrain
    dsimp only
    split
    · unfold completeLong
      split
      · exact .inl rfl
      · exact .inr rfl
    · exact .inl rfl
  unfold checkDrain
  split
  · split
    · exact .inl rfl
    · exact ends _ _
  · split
    · exact .inl rfl
    · exact ends _ _
  · exact .inl rfl

theorem adds_checkDrain (s : State) : Adds s (checkDrain s) := by
  rcases checkDrain_flags s with h | h
  · exact adds_of_same h
  · exact adds_bit (e := .resultReady) nofun nofun h

theorem builderTurn_host (p s : State) : (builderTurn p s).host = s.host := (builderTurn_frame p s).2.2

theorem adds_beforeNotices (p m : State) : Adds m (beforeNotices p m) := by
  have h := (adds_planRecalls p m).trans (adds_trimExcess (planRecalls p m))
  unfold beforeNotices
  split
  · exact h
  · exact h.trans (adds_of_same (by rw [builderTurn_host]))

/-- The engine's turn adds flags, and none that the end of the happening sets itself. -/
theorem adds_engineSettle (p m : State) : Adds m (engineSettle p m) := by
  cases hs : m.control.station.speaks with
  | false => rw [engineSettle_of_silent hs]; exact adds_of_same rfl
  | true =>
    have h : Adds m (beforeAsks p m) := (((adds_beforeNotices p m).trans (adds_placeNotices _)).trans
      (adds_checkDrain _)).trans (adds_of_same (by rw [beforeAsks, builderTurn_host]))
    exact h.trans (adds_of_same (by rw [(askFrameOf_engineSettle hs).2.2.2.2]))

end Adds

/-! ### Changes pending -/

/-- What a DECLARE tells of the station itself is as it was in p. -/
def Declared (p s : State) : Prop :=
  p.engine.role.value = s.engine.role.value ∧ p.control.unpowered = s.control.unpowered
    ∧ effectiveCapacity p = effectiveCapacity s

theorem Declared.congr {p s t : State} (hr : t.engine.role = s.engine.role) (hc : t.control = s.control)
    (hs : t.engine.supply = s.engine.supply) (hcap : t.engine.capacity = s.engine.capacity) :
    Declared p t ↔ Declared p s := by
  simp only [Declared, hr, hc, effectiveCapacity, hs, hcap]

theorem placeDeclare_changePending (s : State) : (placeDeclare s).engine.changePending = s.engine.changePending := by
  unfold placeDeclare
  split
  · split
    · rfl
    · split <;> rfl
  · rfl

theorem dueByChange_changePending (s : State) : (dueByChange s).engine.changePending = s.engine.changePending := by
  unfold dueByChange
  split <;> rfl

/-- The builder's turn makes a change of what the station declares pending. -/
theorem builderTurn_changePending (p : State) {s : State} (hs : s.control.station.speaks = true) :
    (builderTurn p s).engine.changePending = true ↔ s.engine.changePending = true ∨ ¬ Declared p s := by
  rw [builderTurn, placeDeclare_changePending, dueByChange_changePending, noteDeclared]
  split
  · rename_i h
    exact ⟨.inl, fun k => k.resolve_right (not_not_intro h)⟩
  · rename_i h
    rw [noteChange_changePending, hs]
    exact ⟨fun _ => .inr h, fun _ => rfl⟩

theorem checkDrain_changePending (s : State) : (checkDrain s).engine.changePending = s.engine.changePending := by
  rcases checkDrain_eq s with e | ⟨_, _, _, _, e, -⟩
  · rw [e]
  · rw [e]

theorem engineSettle_table {p m : State} (hs : m.control.station.speaks = true) :
    (engineSettle p m).engine.table = (placeNotices (beforeNotices p m)).engine.table := by
  rw [← settle_engine (b := false) (not_loading_of_speaks hs), settle_table hs]

theorem beforeNotices_table (p m : State) :
    (beforeNotices p m).engine.table = (trimExcess (planRecalls p m)).engine.table := by
  unfold beforeNotices
  split
  · rfl
  · exact builderTurn_table ..

section Told

variable {p m : State}

/-- The marks of the recalls, trims and notices, before and after the builder's first turn. -/
theorem marked_stages (hd : Distinct m.engine.table) (hs : m.control.station.speaks = true) :
    Marked m (trimExcess (planRecalls p m)) ∧ Marked (beforeNotices p m) (placeNotices (beforeNotices p m)) := by
  have h1 := marked_planRecalls p hd hs
  have h2 := marked_trimExcess h1.2.1 (by rw [h1.2.2.1]; exact hs)
  have h12 := h1.trans hd h2
  refine ⟨h12, marked_placeNotices (by rw [beforeNotices_table]; exact h12.2.1) ?_⟩
  rw [(sameDrain_beforeNotices p m).1]
  exact hs

/-- What the tables' ageing over the whole engine's turn comes to. -/
theorem stays_stages {same : Record → Record → Prop}
    (hsame : ∀ r y z : Record, r.Ages y → y.Ages z → (same z r ↔ same y r ∧ same z y))
    (hd : Distinct m.engine.table) (hs : m.control.station.speaks = true) :
    Stays same m.engine.table (engineSettle p m).engine.table
      ↔ Stays same m.engine.table (trimExcess (planRecalls p m)).engine.table
        ∧ Stays same (beforeNotices p m).engine.table (placeNotices (beforeNotices p m)).engine.table := by
  obtain ⟨h1, h2⟩ := marked_stages (p := p) hd hs
  have h3 := h2.1
  rw [beforeNotices_table] at h3
  rw [engineSettle_table hs, beforeNotices_table]
  exact stays_trans hsame hd h1.2.1 h1.1 h3

/-- CONTRACTS_CHANGED tells the engine's turn. -/
theorem contractsChanged_engineSettle (hd : Distinct m.engine.table) (hs : m.control.station.speaks = true) :
    hasEvent .contractsChanged (engineSettle p m) = true ↔ hasEvent .contractsChanged m = true
      ∨ ¬ Stays Record.Seen m.engine.table (engineSettle p m).engine.table := by
  obtain ⟨h1, h2⟩ := marked_stages (p := p) hd hs
  have hE : hasEvent .contractsChanged (engineSettle p m)
      = hasEvent .contractsChanged (checkDrain (placeNotices (beforeNotices p m))) :=
    hasEvent_congr (by rw [(askFrameOf_engineSettle hs).2.2.2.2, beforeAsks, builderTurn_host]) _
  have hw : hasEvent .contractsChanged (checkDrain (placeNotices (beforeNotices p m)))
      = hasEvent .contractsChanged (placeNotices (beforeNotices p m)) := by
    rcases checkDrain_flags (placeNotices (beforeNotices p m)) with h | h
    · exact hasEvent_congr h _
    · rw [hasEvent_of_bit h, decide_eq_false nofun, Bool.or_false]
  have hb : hasEvent .contractsChanged (beforeNotices p m) = hasEvent .contractsChanged (trimExcess (planRecalls p m)) := by
    unfold beforeNotices
    split
    · rfl
    · exact hasEvent_congr (by rw [builderTurn_host]) _
  rw [hE, hw, h2.2.2.2.1, hb, h1.2.2.2.1, stays_stages (fun _ _ _ => Record.seen_trans) hd hs, not_and_or, or_assoc]

/-- A pending change tells the engine's turn, but for a role that changed before the builder's first turn. -/
theorem changePending_engineSettle (hd : Distinct m.engine.table) (hs : m.control.station.speaks = true) :
    (m.engine.changePending = true ∨ ¬ Stays Record.Listed m.engine.table (engineSettle p m).engine.table
        ∨ ¬ Declared p (engineSettle p m) → (engineSettle p m).engine.changePending = true)
      ∧ ((engineSettle p m).engine.changePending = true → m.engine.changePending = true
        ∨ ¬ Stays Record.Listed m.engine.table (engineSettle p m).engine.table
        ∨ ¬ Declared p (engineSettle p m) ∨ ¬ Declared p m) := by
  obtain ⟨h1, h2⟩ := marked_stages (p := p) hd hs
  have hb1 : Bargains true True m (trimExcess (planRecalls p m)) := ((Bargains.refl m).planRecalls p).trimExcess
  have hs1 : (trimExcess (planRecalls p m)).control.station.speaks = true := by rw [hb1.control]; exact hs
  have hdecl1 : Declared p (trimExcess (planRecalls p m)) ↔ Declared p m :=
    Declared.congr hb1.role hb1.control hb1.supply hb1.capacity
  obtain ⟨hrole, -, -, hpend, -⟩ := askFrameOf_engineSettle (p := p) hs
  have hcw : (checkDrain (placeNotices (beforeNotices p m))).control = m.control := by
    rw [checkDrain_control]
    exact ((sameDrain_beforeNotices p m).trans (sameDrain_placeNotices _)).1
  have hout := outside_engineSettle p m
  have hdeclE : Declared p (engineSettle p m) ↔ Declared p (checkDrain (placeNotices (beforeNotices p m))) := by
    have hr : (engineSettle p m).engine.role = (checkDrain (placeNotices (beforeNotices p m))).engine.role :=
      hrole.trans (builderTurn_frame p _).1
    have hw : outside (checkDrain (placeNotices (beforeNotices p m))) = outside (engineSettle p m) := by
      rw [hout, outside_checkDrain, outside_placeNotices, beforeNotices]
      split <;> simp
    exact Declared.congr hr (by rw [hcw]; simp) (congrArg (fun s => s.engine.supply) hw.symm)
      (congrArg (fun s => s.engine.capacity) hw.symm)
  have hE : (engineSettle p m).engine.changePending = true
      ↔ (placeNotices (beforeNotices p m)).engine.changePending = true ∨ ¬ Declared p (engineSettle p m) := by
    rw [hpend, beforeAsks, builderTurn_changePending p (by rw [hcw]; exact hs), checkDrain_changePending, hdeclE]
  have hlow : (trimExcess (planRecalls p m)).engine.changePending = true →
      (beforeNotices p m).engine.changePending = true := by
    intro h
    unfold beforeNotices
    split
    · exact h
    · exact (builderTurn_changePending p hs1).mpr (.inl h)
  have hhigh : (beforeNotices p m).engine.changePending = true →
      (trimExcess (planRecalls p m)).engine.changePending = true ∨ ¬ Declared p m := by
    unfold beforeNotices
    split
    · exact .inl
    · intro h
      exact ((builderTurn_changePending p hs1).mp h).imp_right (mt hdecl1.mpr)
  rw [stays_stages (fun _ _ _ => Record.listed_trans) hd hs, not_and_or, hE, h2.2.2.2.2]
  constructor
  · rintro (h | (h | h) | h)
    · exact .inl (.inl (hlow (h1.2.2.2.2.mpr (.inl h))))
    · exact .inl (.inl (hlow (h1.2.2.2.2.mpr (.inr h))))
    · exact .inl (.inr h)
    · exact .inr h
  · rintro ((h | h) | h)
    · rcases hhigh h with h | h
      · rcases h1.2.2.2.2.mp h with h | h
        · exact .inl h
        · exact .inr (.inl (.inl h))
      · exact .inr (.inr (.inr h))
    · exact .inr (.inl (.inr h))
    · exact .inr (.inr (.inl h))

end Told

end Sys2Proof.Machine
end

section
/-! SUPPORT. The frame of the end of a happening, put together. -/

namespace Sys2Proof.Machine

variable {b : Bool} {p m : State}

/-- Where the station is not in JOINED or LEAVING its end leaves the engine, the link and the flags that no mark is. -/
theorem settle_still (hs : m.control.station.speaks = false) : (settle b p m).engine = m.engine
    ∧ (settle b p m).link = m.link ∧ (settle b p m).host.results = m.host.results
    ∧ (settle b p m).host.long = m.host.long ∧ hasEvent .contractsChanged (settle b p m) = hasEvent .contractsChanged m := by
  by_cases hl : m.control.station = .loading
  · rw [settle_of_loading hl]
    exact ⟨rfl, rfl, rfl, rfl, rfl⟩
  · obtain ⟨i, x, e⟩ := settle_of_silent (b := b) (p := p) hs hl
    have hbits : (changeBits p m).getLsbD Event.contractsChanged.index = false := by
      unfold changeBits
      split <;> split <;> decide
    have hf : (settle b p m).host.flags = m.host.flags ||| changeBits p m := by rw [e]
    refine ⟨by rw [e], by rw [e], by rw [e], by rw [e], ?_⟩
    rw [hasEvent_of_or hf, hbits, Bool.or_false]

/-- The flags at the end of a happening. -/
theorem settle_flags (hl : m.control.station ≠ .loading) :
    (settle b p m).host.flags = (engineSettle p m).host.flags ||| changeBits p (engineSettle p m) := by
  obtain ⟨i, x, e⟩ := settle_eq (b := b) (p := p) hl
  rw [e]

theorem and_or_self (f g : BitVec 16) : (f ||| g) &&& f = f := by
  ext i
  simp only [BitVec.getElem_and, BitVec.getElem_or]
  cases f[i] <;> simp

/-- No flag is cleared. -/
theorem settle_flags_kept (b : Bool) (p m : State) : (settle b p m).host.flags &&& m.host.flags = m.host.flags := by
  by_cases hl : m.control.station = .loading
  · rw [settle_of_loading hl]
    exact BitVec.and_self
  · obtain ⟨f, h, -, -⟩ := adds_engineSettle p m
    rw [settle_flags hl, h, BitVec.or_assoc]
    exact and_or_self _ _

theorem hasEvent_changeBits (hl : m.control.station ≠ .loading) {e : Event}
    (he : ∀ f : BitVec 16, f.getLsbD Event.roleChanged.index = false → f.getLsbD Event.stateChanged.index = false →
      f.getLsbD e.index = false) :
    hasEvent e (settle b p m) = (hasEvent e m || (changeBits p (engineSettle p m)).getLsbD e.index) := by
  obtain ⟨f, h, hr, hs⟩ := adds_engineSettle p m
  rw [hasEvent_of_or (settle_flags hl), hasEvent_of_or h, he f hr hs, Bool.or_false]

/-- ROLE_CHANGED tells a role value that differs. -/
theorem roleChanged_settle (hl : m.control.station ≠ .loading) : hasEvent .roleChanged (settle b p m)
    = (hasEvent .roleChanged m || decide (p.engine.role.value ≠ (settle b p m).engine.role.value)) := by
  rw [hasEvent_changeBits hl fun _ h _ => h, settle_engine hl]
  congr 1
  unfold changeBits
  by_cases h : p.engine.role.value = (engineSettle p m).engine.role.value
  · rw [if_pos h]
    split
    · simp [h]
    · simp [h]
      decide
  · rw [if_neg h]
    split <;> (simp [h]; decide)

/-- STATE_CHANGED tells a station state that differs. -/
theorem stateChanged_settle (hl : m.control.station ≠ .loading) : hasEvent .stateChanged (settle b p m)
    = (hasEvent .stateChanged m || decide (p.control.station ≠ m.control.station)) := by
  rw [hasEvent_changeBits hl fun _ _ h => h]
  congr 1
  unfold changeBits
  rw [engineSettle_control]
  by_cases h : p.control.station = m.control.station
  · rw [if_pos h]
    split
    · simp [h]
    · simp [h]
      decide
  · rw [if_neg h]
    split <;> (simp [h]; decide)

/-- CONTRACTS_CHANGED tells a record that went or differs. -/
theorem contractsChanged_settle (hd : Distinct m.engine.table) : hasEvent .contractsChanged (settle b p m) = true
    ↔ hasEvent .contractsChanged m = true ∨ ¬ Stays Record.Seen m.engine.table (settle b p m).engine.table := by
  cases hs : m.control.station.speaks with
  | false =>
    obtain ⟨h1, -, -, -, h5⟩ := settle_still (b := b) (p := p) hs
    rw [h5, h1]
    exact ⟨.inl, fun h => h.resolve_right (not_not_intro (.refl .refl _))⟩
  | true =>
    have hl := not_loading_of_speaks hs
    have hbits : (changeBits p (engineSettle p m)).getLsbD Event.contractsChanged.index = false := by
      unfold changeBits
      split <;> split <;> decide
    rw [hasEvent_of_or (settle_flags hl), hbits, Bool.or_false, settle_engine hl]
    exact contractsChanged_engineSettle hd hs

/-- Settles O17: what the end leaves, the marks it sets, and the changes that wait for a DECLARE. -/
theorem endOfHappeningFrame : Obligations.EndOfHappeningFrame := by
  intro shed p m t
  refine ⟨outside_settle .., settle_flags_kept .., fun hl => ⟨roleChanged_settle hl, stateChanged_settle hl⟩,
    fun hd => ?_, fun hs => ?_⟩
  · intro stays seen listed declared
    refine ⟨contractsChanged_settle hd, fun hs => ?_⟩
    have hl := not_loading_of_speaks hs
    have he : t.engine = (engineSettle p m).engine := settle_engine hl
    obtain ⟨h1, h2⟩ := changePending_engineSettle (p := p) hd hs
    have hdecl : declared ↔ Declared p (engineSettle p m) :=
      Declared.congr (congrArg Engine.role he) (by simp [t]) (congrArg Engine.supply he) (congrArg Engine.capacity he)
    have hst : stays listed ↔ Stays Record.Listed m.engine.table (engineSettle p m).engine.table := by
      rw [← he]
      exact Iff.rfl
    rw [hdecl, hst, he]
    refine ⟨h1, fun hrole hp => ?_⟩
    rcases h2 hp with h | h | h | h
    · exact .inl h
    · exact .inr (.inl h)
    · exact .inr (.inr h)
    · refine .inr (.inr fun hE => h ?_)
      obtain ⟨e1, e2, e3⟩ := hE
      have hout := outside_engineSettle p m
      have hr : p.engine.role.value = m.engine.role.value := by
        rcases hrole with hr | hr
        · exact hr
        · rw [e1, hr]
      have hcap : effectiveCapacity (engineSettle p m) = effectiveCapacity m := by
        rw [effectiveCapacity, effectiveCapacity,
          show (engineSettle p m).engine.supply = m.engine.supply from congrArg (fun s => s.engine.supply) hout,
          show (engineSettle p m).engine.capacity = m.engine.capacity from congrArg (fun s => s.engine.capacity) hout]
      exact ⟨hr, by rw [e2, engineSettle_control], e3.trans hcap⟩
  · obtain ⟨h1, h2, h3, h4, -⟩ := settle_still (b := shed) (p := p) hs
    exact ⟨h1, h2, h3, h4⟩

end Sys2Proof.Machine
end

section
/-! SUPPORT. Frames encoded and read back: the bytes of numbers, payloads and frames, and the checks they pass. -/

namespace Sys2Proof.Machine

/-! ### Numbers in bytes -/

theorem put8_toNat {n : Nat} (h : n < 256) : (put8 n).toNat = n := by
  simp [put8, BitVec.toNat_ofNat, Nat.mod_eq_of_lt h]

theorem be16_put16 {n : Nat} (h : n < 65536) : be16 (BitVec.ofNat 8 (n / 256)) (BitVec.ofNat 8 n) = n := by
  simp only [be16, BitVec.toNat_ofNat]
  omega

theorem crcBytes_length (bs : List Byte) : (crcBytes bs).length = 2 := rfl

/-- The three flags of a DECLARE stand in their bits. -/
theorem flagByte_bits (d : Declare) : d.flagByte.getLsbD 0 = d.unpowered ∧ d.flagByte.getLsbD 1 = d.sheddable
    ∧ d.flagByte.getLsbD 2 = d.leaving := by
  have h : ∀ a b c : Bool, (bitByte a 0 ||| bitByte b 1 ||| bitByte c 2).getLsbD 0 = a
      ∧ (bitByte a 0 ||| bitByte b 1 ||| bitByte c 2).getLsbD 1 = b
      ∧ (bitByte a 0 ||| bitByte b 1 ||| bitByte c 2).getLsbD 2 = c := by decide
  exact h _ _ _

/-! ### Payloads -/

theorem summary_bytes_length (m : Summary) : m.bytes.length = 5 := rfl

theorem summaries_bytes_length (ms : List Summary) : (ms.flatMap Summary.bytes).length = 5 * ms.length := by
  induction ms with
  | nil => rfl
  | cons m ms ih => rw [List.flatMap_cons, List.length_append, summary_bytes_length, ih, List.length_cons]; omega

/-- A payload has the length its kind gives it. -/
theorem payload_bytes_length (p : Payload) : p.bytes.length = p.length := by
  cases p with
  | declare d =>
    simp only [Payload.bytes, Payload.length, List.length_append, summaries_bytes_length, put16, List.length_cons,
      List.length_nil]
  | _ => rfl

/-- The summaries are read back. -/
theorem parseSummaries_bytes {ms : List Summary} (h : ms.all Summary.fits = true) :
    parseSummaries (ms.flatMap Summary.bytes) = ms := by
  induction ms with
  | nil => rfl
  | cons m ms ih =>
    simp only [List.all_cons, Bool.and_eq_true] at h
    obtain ⟨hm, hms⟩ := h
    obtain ⟨h1, h2, h3⟩ := of_decide_eq_true hm
    have e : (m :: ms).flatMap Summary.bytes = put8 m.counterpart :: put8 m.id :: BitVec.ofNat 8 (m.amount / 256)
        :: BitVec.ofNat 8 m.amount :: m.revision :: ms.flatMap Summary.bytes := rfl
    rw [e, parseSummaries, ih hms, put8_toNat h1, put8_toNat h2, be16_put16 h3]

/-- The bytes of a DECLARE. -/
theorem declare_bytes (d : Declare) : (Payload.declare d).bytes = put8 d.role :: d.flagByte :: d.incarnation
    :: put8 d.period :: BitVec.ofNat 8 (d.capacity / 256) :: BitVec.ofNat 8 d.capacity
    :: BitVec.ofNat 8 (d.spare / 256) :: BitVec.ofNat 8 d.spare :: BitVec.ofNat 8 (d.unmet / 256)
    :: BitVec.ofNat 8 d.unmet :: put8 d.summaries.length :: d.summaries.flatMap Summary.bytes := rfl

/-- A payload that fits its bytes is read back. -/
theorem parsePayload_bytes {p : Payload} (h : p.fits = true) : parsePayload p.kind p.bytes = some p := by
  match p, h with
  | .declare d, h =>
    obtain ⟨hd, hall⟩ := (Bool.and_eq_true _ _).mp h
    obtain ⟨h1, h2, h3, h4, h5, -⟩ := of_decide_eq_true hd
    obtain ⟨b0, b1, b2⟩ := flagByte_bits d
    rw [declare_bytes]
    show some (Payload.declare ⟨(put8 d.role).toNat, d.flagByte.getLsbD 0, d.flagByte.getLsbD 1, d.flagByte.getLsbD 2,
      d.incarnation, (put8 d.period).toNat, be16 _ _, be16 _ _, be16 _ _, parseSummaries _⟩) = _
    rw [put8_toNat h1, put8_toNat h2, be16_put16 h3, be16_put16 h4, be16_put16 h5, b0, b1, b2, parseSummaries_bytes hall]
  | .ask r a m i, h =>
    obtain ⟨h1, h2, h3, h4⟩ := of_decide_eq_true h
    show some (Payload.ask (put8 r).toNat (be16 _ _) (be16 _ _) (put8 i).toNat) = _
    rw [put8_toNat h1, be16_put16 h2, be16_put16 h3, put8_toNat h4]
  | .grant r i a v, h =>
    obtain ⟨h1, h2, h3⟩ := of_decide_eq_true h
    show some (Payload.grant (put8 r).toNat (put8 i).toNat (be16 _ _) v) = _
    rw [put8_toNat h1, put8_toNat h2, be16_put16 h3]
  | .hold r t, h =>
    obtain ⟨h1, h2⟩ := of_decide_eq_true h
    show some (Payload.hold (put8 r).toNat (be16 _ _)) = _
    rw [put8_toNat h1, be16_put16 h2]
  | .decline r c, h =>
    obtain ⟨h1, h2⟩ := of_decide_eq_true h
    show some (Payload.decline (put8 r).toNat (put8 c).toNat) = _
    rw [put8_toNat h1, put8_toNat h2]
  | .trim i a v, h =>
    obtain ⟨h1, h2⟩ := of_decide_eq_true h
    show some (Payload.trim (put8 i).toNat (be16 _ _) v) = _
    rw [put8_toNat h1, be16_put16 h2]
  | .recall i a v, h =>
    obtain ⟨h1, h2⟩ := of_decide_eq_true h
    show some (Payload.recall (put8 i).toNat (be16 _ _) v) = _
    rw [put8_toNat h1, be16_put16 h2]
  | .yield i a v, h =>
    obtain ⟨h1, h2⟩ := of_decide_eq_true h
    show some (Payload.yield (put8 i).toNat (be16 _ _) v) = _
    rw [put8_toNat h1, be16_put16 h2]
  | .release q i, h =>
    obtain ⟨h1, h2⟩ := of_decide_eq_true h
    show some (Payload.release (put8 q).toNat (put8 i).toNat) = _
    rw [put8_toNat h1, put8_toNat h2]
  | .alert u, h =>
    show some (Payload.alert (be16 _ _)) = _
    rw [be16_put16 (of_decide_eq_true h)]
  | .ack, h => rfl

theorem kind_range (p : Payload) : 1 ≤ p.kind ∧ p.kind ≤ 11 := by cases p <;> simp [Payload.kind]

/-- At most as many summaries as the Contract Table has places fit. -/
theorem summaries_length_le {d : Declare} (h : (Payload.declare d).fits = true) : d.summaries.length ≤ 16 := by
  obtain ⟨hd, -⟩ := (Bool.and_eq_true _ _).mp h
  obtain ⟨-, -, -, -, -, hn⟩ := of_decide_eq_true hd
  exact hn

/-- The length of a payload that fits passes its test. -/
theorem length_range {p : Payload} (h : p.fits = true) : p.length ≤ 91 ∧ lengthFits p.kind p.length = true := by
  cases p with
  | declare d =>
    have hn := summaries_length_le h
    have hle : 11 + 5 * d.summaries.length ≤ 91 := by omega
    refine ⟨hle, ?_⟩
    simp [Payload.kind, Payload.length, lengthFits, hle]
  | _ => exact ⟨by simp [Payload.length], rfl⟩

/-! ### Frames -/

/-- The byte of kind and sequence holds both. -/
theorem kindByte_toNat (f : Frame) : (put8 (16 * f.body.kind + f.seq.toNat)).toNat = 16 * f.body.kind + f.seq.toNat := by
  have hk := kind_range f.body
  have hseq := f.seq.isLt
  exact put8_toNat (by omega)

/-- The destination of a frame that fits is the broadcast address, or a station's. -/
theorem destination_range {f : Frame} (h : f.fits = true) : f.dst < 256
    ∧ (if (f.body.kind == 1 || f.body.kind == 10) = true then f.dst == 0 else decide (1 ≤ f.dst) && decide (f.dst ≤ 30))
      = true := by
  obtain ⟨-, hdst⟩ := (Bool.and_eq_true _ _).mp h
  have hzero (h0 : (f.dst == 0) = true) : f.dst < 256 ∧ (f.dst == 0) = true := ⟨by have := beq_iff_eq.mp h0; omega, h0⟩
  have hstation (ha : addressOk f.dst = true) : f.dst < 256 ∧ (decide (1 ≤ f.dst) && decide (f.dst ≤ 30)) = true := by
    have hr : 1 ≤ f.dst ∧ f.dst ≤ 30 := of_decide_eq_true ha
    exact ⟨by omega, by simpa using hr⟩
  cases hb : f.body with
  | declare => rw [hb] at hdst; exact hzero hdst
  | alert => rw [hb] at hdst; exact hzero hdst
  | _ => rw [hb] at hdst; exact hstation hdst

/-- The count byte of a DECLARE agrees with its length. -/
theorem count_agrees {f : Frame} (h : f.body.fits = true) (hkind : f.body.kind = 1) :
    f.body.length = 11 + 5 * (f.bytes.getD 15 0).toNat := by
  obtain ⟨dst, src, seq, body⟩ := f
  cases body with
  | declare d =>
    have hn := summaries_length_le h
    show 11 + 5 * d.summaries.length = 11 + 5 * (put8 d.summaries.length).toNat
    rw [put8_toNat (by omega)]
  | _ => simp [Payload.kind] at hkind

/-- A frame that fits passes the checks of its first bytes. -/
theorem earlyChecksPass_bytes {f : Frame} (h : f.fits = true) : earlyChecksPass f.bytes = true := by
  obtain ⟨hdst, hto⟩ := destination_range h
  obtain ⟨h', -⟩ := (Bool.and_eq_true _ _).mp h
  obtain ⟨hbody, hsrc⟩ := (Bool.and_eq_true _ _).mp h'
  have hs : 1 ≤ f.src ∧ f.src ≤ 30 := of_decide_eq_true hsrc
  obtain ⟨hk1, hk11⟩ := kind_range f.body
  obtain ⟨hlen, hfits⟩ := length_range hbody
  have hseq := f.seq.isLt
  have hkind : (f.bytes.getD 3 0).toNat / 16 = f.body.kind := by
    have : (f.bytes.getD 3 0).toNat = 16 * f.body.kind + f.seq.toNat := kindByte_toNat f
    omega
  have hd1 : (f.bytes.getD 1 0).toNat = f.dst := put8_toNat hdst
  have hd2 : (f.bytes.getD 2 0).toNat = f.src := put8_toNat (by omega)
  have hd4 : (f.bytes.getD 4 0).toNat = f.body.length := put8_toNat (by omega)
  have hcount : (!(decide (15 < f.bytes.length) && f.body.kind == 1)
      || f.body.length == 11 + 5 * (f.bytes.getD 15 0).toNat) = true := by
    by_cases hk : f.body.kind = 1
    · rw [← count_agrees hbody hk, beq_self_eq_true, Bool.or_true]
    · rw [beq_false_of_ne hk, Bool.and_false]; rfl
  have hd0 : (f.bytes.getD 0 0).toNat = delimiter.toNat := rfl
  have hle : f.body.length ≤ 96 := by omega
  simp only [earlyChecksPass, hkind, hd0, hd1, hd2, hd4, hcount, hto, hfits, decide_eq_true hk1, decide_eq_true hk11,
    decide_eq_true hs.1, decide_eq_true hs.2, decide_eq_true hle, beq_self_eq_true, Bool.or_true, Bool.and_true]

/-- The parts of a frame on the line: its length, what its CRC covers, its CRC, and its payload. -/
theorem bytes_parts (f : Frame) : f.bytes.length = 7 + f.body.length ∧ (f.bytes.drop 1).take (4 + f.body.length) = f.covered
    ∧ (f.bytes.drop (5 + f.body.length)).take 2 = crcBytes f.covered
    ∧ (f.bytes.drop 5).take f.body.length = f.body.bytes := by
  have hl := payload_bytes_length f.body
  have hcovered : f.covered.length = 4 + f.body.length := by
    rw [← hl]; simp only [Frame.covered, List.length_append, List.length_cons, List.length_nil]
  have h1 : f.bytes.drop 1 = f.covered ++ crcBytes f.covered := rfl
  have h5 : f.bytes.drop 5 = f.body.bytes ++ crcBytes f.covered := rfl
  have hend : f.bytes.drop (5 + f.body.length) = crcBytes f.covered := by
    rw [← List.drop_drop, h5, ← hl, List.drop_left]
  refine ⟨?_, ?_, ?_, ?_⟩
  · simp only [Frame.bytes, List.length_append, hcovered, crcBytes_length, List.length_cons, List.length_nil]; omega
  · rw [h1, ← hcovered, List.take_left]
  · rw [hend]; rfl
  · rw [h5, ← hl, List.take_left]

/-- Settles O14: a frame that fits passes each check on its own bytes, and its payload is read back. -/
theorem framesRoundTrip : Obligations.FramesRoundTrip := by
  unfold Obligations.FramesRoundTrip
  intro f h
  obtain ⟨hdst, -⟩ := destination_range h
  obtain ⟨h', -⟩ := (Bool.and_eq_true _ _).mp h
  obtain ⟨hbody, hsrc⟩ := (Bool.and_eq_true _ _).mp h'
  have hs : 1 ≤ f.src ∧ f.src ≤ 30 := of_decide_eq_true hsrc
  obtain ⟨hlen, -⟩ := length_range hbody
  obtain ⟨hlength, hcovered, hcrc, hpayload⟩ := bytes_parts f
  have hseq := f.seq.isLt
  have hd1 : (f.bytes.getD 1 0).toNat = f.dst := put8_toNat hdst
  have hd2 : (f.bytes.getD 2 0).toNat = f.src := put8_toNat (by omega)
  have hd3 : (f.bytes.getD 3 0).toNat = 16 * f.body.kind + f.seq.toNat := kindByte_toNat f
  have hd4 : (f.bytes.getD 4 0).toNat = f.body.length := put8_toNat (by omega)
  have hkind : (16 * f.body.kind + f.seq.toNat) / 16 = f.body.kind := by omega
  have hs4 : BitVec.ofNat 4 (16 * f.body.kind + f.seq.toNat) = f.seq := by
    apply BitVec.eq_of_toNat_eq
    rw [BitVec.toNat_ofNat]
    omega
  have hshort : ¬ (f.bytes.length < 5 ∨ f.bytes.length < 7 + f.body.length) := by omega
  have hwhole : ¬ (LineEnd.idle = .overrun ∨ 0 ≠ 0 ∨ f.bytes.length ≠ 7 + f.body.length) := by simp [hlength]
  simp only [classify, earlyChecksPass_bytes h, hd1, hd2, hd3, hd4, hcovered, hcrc, hpayload, hkind, hs4,
    parsePayload_bytes hbody, if_neg hshort, if_neg hwhole]
  rw [if_neg (by decide), if_neg (not_not_intro rfl), if_neg nofun]

end Sys2Proof.Machine
end

section
/-! SUPPORT. The recalls and trims that the end of a happening decides, told record by record. -/

namespace Sys2Proof.Machine

/-! ### Sums over the table -/

section Sums

variable {before after : List Record} {r n : Record} {s : State} {c f : Bool}

theorem held_at (ht : s.engine.table = before ++ r :: after) :
    held s = (before.map Record.held).sum + r.held + (after.map Record.held).sum := by
  simp only [held, ht, List.map_append, List.map_cons, List.sum_append, List.sum_cons]
  omega

theorem committed_at (ht : s.engine.table = before ++ r :: after) :
    committed s = (before.map Record.committed).sum + r.committed + (after.map Record.committed).sum := by
  simp only [committed, ht, List.map_append, List.map_cons, List.sum_append, List.sum_cons]
  omega

theorem recallCover_at (ht : s.engine.table = before ++ r :: after) : (s.engine.table.map Record.recallCover).sum
    = (before.map Record.recallCover).sum + r.recallCover + (after.map Record.recallCover).sum := by
  simp only [ht, List.map_append, List.map_cons, List.sum_append, List.sum_cons]
  omega

end Sums

/-! ### Recalls planned -/

theorem amended_idle (s : State) : ∃ c f, s = amended s.engine.table c f s := ⟨false, false, rfl⟩

section Plan

variable {before after : List Record} {r : Record} {s : State}

/-- A recall in its place. -/
theorem startRecall_at (ht : s.engine.table = before ++ r :: after) (hd : Distinct s.engine.table)
    (hs : s.control.station.speaks = true) (x : Nat) :
    ∃ c f, startRecall x r s = amended (before ++ recallTo s x r :: after) c f s :=
  ⟨_, _, putRecord_at (n := recallTo s x r) ht (ht ▸ hd) ⟨rfl, rfl⟩ hs⟩

/-- A recall takes off the uncovered excess what it will take off its record. -/
theorem uncovered_recallTo {c f : Bool} (ht : s.engine.table = before ++ r :: after) (hside : r.isSupply = true)
    (hactive : r.isActive = true) (x : Nat) :
    uncovered (amended (before ++ recallTo s x r :: after) c f s) = uncovered s - (r.amount - x) := by
  have hstate : r.state = .active := of_decide_eq_true hactive
  have hs : r.side = .supply := of_decide_eq_true hside
  have hcover : r.recallCover = 0 := by simp [Record.recallCover, hs, hstate]
  have hcover' : (recallTo s x r).recallCover = r.amount - x := by simp [Record.recallCover, recallTo, hs]
  have hcommit : (recallTo s x r).committed = r.committed := by
    simp [Record.committed, recallTo, Record.isSupply, Record.isClosing, hstate, hs]
  have hcap : effectiveCapacity (amended (before ++ recallTo s x r :: after) c f s) = effectiveCapacity s := rfl
  simp only [uncovered, hcap, committed_at (s := amended _ c f s) rfl, recallCover_at (s := amended _ c f s) rfl,
    committed_at ht, recallCover_at ht, hcover, hcover', hcommit]
  omega

/-- The record that a plan leaves of one. -/
def plannedRecord (s : State) (plan : List (Record × Nat)) (r : Record) : Record :=
  match plan.find? fun x => x.1 = r with
  | some x => recallTo s x.2 r
  | none => r

theorem plannedRecord_nil (s : State) (r : Record) : plannedRecord s [] r = r := rfl

theorem plannedRecord_of_not_mem {plan : List (Record × Nat)} (h : ∀ x ∈ plan, x.1 ≠ r) : plannedRecord s plan r = r := by
  have : plan.find? (fun x => decide (x.1 = r)) = none := List.find?_eq_none.mpr fun x hx => by simpa using h x hx
  simp only [plannedRecord, this]

theorem plannedRecord_cons_same (s : State) (r : Record) (x : Nat) (plan : List (Record × Nat)) :
    plannedRecord s ((r, x) :: plan) r = recallTo s x r := by simp [plannedRecord]

theorem plannedRecord_cons_other {q : Record} (h : r ≠ q) (x : Nat) (plan : List (Record × Nat)) :
    plannedRecord s ((r, x) :: plan) q = plannedRecord s plan q := by simp [plannedRecord, h]

/-- A plan takes only records it is given. -/
theorem mem_of_mem_recallPlan {g x : Nat} {rs : List Record} {e : Record × Nat} (h : e ∈ recallPlan g x rs) : e.1 ∈ rs := by
  induction rs generalizing x with
  | nil => simp [recallPlan] at h
  | cons r rs ih =>
    by_cases hx : x = 0
    · simp [recallPlan, hx] at h
    · rw [recallPlan_cons hx] at h
      rcases List.mem_cons.mp h with rfl | h
      · exact List.mem_cons_self
      · exact List.mem_cons_of_mem r (ih h)

theorem recallPlan_zero (g : Nat) (rs : List Record) : recallPlan g 0 rs = [] := by cases rs <;> simp [recallPlan]

theorem foldl_planOne_covered (rs : List Record) (h : uncovered s = 0) : rs.foldl planOne s = s := by
  induction rs with
  | nil => rfl
  | cons r rs ih => rw [List.foldl_cons, planOne, if_pos h, ih]

/-- Planning ACTIVE records of the table, each once: the table is the one their plan gives, and an excess is left only where
every one of them was taken. -/
theorem foldl_planOne {rs : List Record} (hrs : Distinct rs)
    (hact : ∀ r ∈ rs, r.isSupply = true ∧ r.isActive = true) :
    ∀ {s : State}, Distinct s.engine.table → s.control.station.speaks = true → (∀ r ∈ rs, r ∈ s.engine.table) →
    (∃ c f, rs.foldl planOne s
        = amended (s.engine.table.map (plannedRecord s (recallPlan (cfg s).minGrant (uncovered s) rs))) c f s)
      ∧ (uncovered (rs.foldl planOne s) = 0
        ∨ ∀ y ∈ (rs.foldl planOne s).engine.table, y.isSupply = true → y.isActive = true →
            y ∈ s.engine.table ∧ y ∉ rs) := by
  induction rs with
  | nil =>
    intro s _ _ _
    have hid : s.engine.table.map (plannedRecord s []) = s.engine.table :=
      (List.map_congr_left fun q _ => plannedRecord_nil s q).trans (List.map_id _)
    exact ⟨⟨false, false, by rw [recallPlan, hid]; rfl⟩, .inr fun y hy _ _ => ⟨hy, List.not_mem_nil⟩⟩
  | cons r rs ih =>
    intro s hd hs hm
    obtain ⟨hr, hrest⟩ := List.pairwise_cons.mp hrs
    by_cases hu : uncovered s = 0
    · have hid : s.engine.table.map (plannedRecord s []) = s.engine.table :=
        (List.map_congr_left fun q _ => plannedRecord_nil s q).trans (List.map_id _)
      rw [foldl_planOne_covered _ hu, hu, recallPlan_zero, hid]
      exact ⟨⟨false, false, rfl⟩, .inl rfl⟩
    · obtain ⟨hside, hactive⟩ := hact r List.mem_cons_self
      obtain ⟨before, after, ht⟩ := List.append_of_mem (hm r List.mem_cons_self)
      have hd' : Distinct (before ++ r :: after) := ht ▸ hd
      have hother : ∀ q ∈ before ++ after, q ≠ r := by
        rintro q hq rfl
        have hn := (List.nodup_middle.mp (hd'.imp fun h e => h ⟨by rw [e], by rw [e]⟩)).notMem
        exact hn hq
      generalize hx : recallTarget (cfg s).minGrant r.amount (uncovered s) = x
      obtain ⟨c, f, e⟩ := startRecall_at ht hd hs x
      have hstep : planOne s r = amended (before ++ recallTo s x r :: after) c f s := by
        rw [planOne, if_neg hu, hx, e]
      have hkeep : ∀ q ∈ rs, q ∈ before ++ recallTo s x r :: after := by
        intro q hq
        have hq' : q ∈ before ++ r :: after := ht ▸ hm q (List.mem_cons_of_mem r hq)
        have hne : q ≠ r := by
          rintro rfl
          exact hr q hq ⟨rfl, rfl⟩
        simp only [List.mem_append, List.mem_cons, hne, false_or] at hq' ⊢
        exact hq'.imp_right .inr
      obtain ⟨⟨c', f', e'⟩, hleft⟩ := ih hrest (fun q hq => hact q (List.mem_cons_of_mem r hq))
        (s := amended (before ++ recallTo s x r :: after) c f s) (hd'.replace (n := recallTo s x r) ⟨rfl, rfl⟩) hs hkeep
      rw [List.foldl_cons, hstep]
      refine ⟨⟨c' || c, f' || f, ?_⟩, ?_⟩
      · have hplan : recallPlan (cfg s).minGrant (uncovered s) (r :: rs)
            = (r, x) :: recallPlan (cfg s).minGrant (uncovered s - (r.amount - x)) rs := by rw [recallPlan_cons hu, hx]
        generalize hp : recallPlan (cfg s).minGrant (uncovered s - (r.amount - x)) rs = plan at hplan
        have hmem : ∀ y ∈ plan, y.1 ∈ rs := fun y hy => mem_of_mem_recallPlan (hp ▸ hy)
        have htaken : plannedRecord s plan (recallTo s x r) = recallTo s x r := plannedRecord_of_not_mem fun y hy e => by
          have := (hact _ (List.mem_cons_of_mem r (hmem y hy))).2
          rw [e] at this
          simp [recallTo, Record.isActive] at this
        have hrest' (l : List Record) (hl : ∀ q ∈ l, q ≠ r) :
            l.map (plannedRecord s ((r, x) :: plan)) = l.map (plannedRecord s plan) :=
          List.map_congr_left fun q hq => plannedRecord_cons_other (hl q hq).symm x plan
        have e'' : rs.foldl planOne (amended (before ++ recallTo s x r :: after) c f s)
            = amended ((before ++ recallTo s x r :: after).map (plannedRecord s (recallPlan (cfg s).minGrant
              (uncovered (amended (before ++ recallTo s x r :: after) c f s)) rs))) c' f'
              (amended (before ++ recallTo s x r :: after) c f s) := e'
        rw [e'', amended_amended, uncovered_recallTo ht hside hactive, hp, ht, hplan, List.map_append, List.map_append,
          List.map_cons, List.map_cons, htaken, plannedRecord_cons_same,
          hrest' before fun q hq => hother q (List.mem_append_left _ hq),
          hrest' after fun q hq => hother q (List.mem_append_right _ hq)]
      · refine hleft.imp_right fun h y hy h1 h2 => ?_
        obtain ⟨hy1, hy2⟩ := h y hy h1 h2
        have hne : y ≠ recallTo s x r := by
          rintro rfl
          simp [recallTo, Record.isActive] at h2
        have hy' : y ∈ before ++ after := by
          simpa [amended, hne] using hy1
        refine ⟨?_, ?_⟩
        · rw [ht]
          simp only [List.mem_append, List.mem_cons] at hy' ⊢
          exact hy'.imp_right .inr
        · rw [List.mem_cons]
          exact fun h => h.elim (hother y hy') hy2

end Plan

end Sys2Proof.Machine
end

section
/-! SUPPORT. The table decided at the end of a happening. -/

namespace Sys2Proof.Machine

/-! ### Trims -/

/-- The trims pass over every record but an ACTIVE taker-side one that no raise names. -/
def passedOver (s : State) (r : Record) : Bool := decide (r.side ≠ .take ∨ r.state ≠ .active) || raiseNames s r

section Trim

variable {before after : List Record} {r : Record} {s : State}

theorem passedOver_iff (s : State) (r : Record) :
    passedOver s r = true ↔ (r.isTake && r.isActive) = false ∨ raiseNames s r = true := by
  simp only [passedOver, Record.isTake, Record.isActive, Bool.or_eq_true, decide_eq_true_eq, Bool.and_eq_false_iff,
    decide_eq_false_iff_not, ne_eq]

theorem trimOne_of_met (r : Record) (h : held s ≤ s.engine.demand) : trimOne s r = s := if_pos (.inl h)

theorem foldl_trimOne_of_met (rs : List Record) (h : held s ≤ s.engine.demand) : rs.foldl trimOne s = s := by
  induction rs with
  | nil => rfl
  | cons r rs ih => rw [List.foldl_cons, trimOne_of_met r h, ih]

theorem trimOne_of_passed (h : passedOver s r = true) : trimOne s r = s := if_pos (.inr ((passedOver_iff s r).mp h))

/-- A record that is trimmed is CLOSING, or loses the whole excess. -/
theorem trimOne_at (ht : s.engine.table = before ++ r :: after) (hd : Distinct s.engine.table)
    (hs : s.control.station.speaks = true) (hheld : s.engine.demand < held s) (hp : passedOver s r = false) :
    ∃ c f, trimOne s r = if r.amount ≤ held s - s.engine.demand
      then amended (before ++ { r with state := .closing, owed := some .release } :: after) c f s
      else amended (before ++ { r with
        amount := r.amount - (held s - s.engine.demand), revision := r.revision + 1, owed := some .trim } :: after)
          c f s := by
  have hnot : ¬ (held s ≤ s.engine.demand ∨ (r.isTake && r.isActive) = false ∨ raiseNames s r = true) := by
    rw [← passedOver_iff, hp]
    simpa using hheld
  have hraise : raiseNames s r = false := (Bool.or_eq_false_iff.mp hp).2
  rw [trimOne, if_neg hnot]
  dsimp only
  split
  · have e := putRecord_at (n := { r with state := .closing, owed := some .release }) ht (ht ▸ hd) ⟨rfl, rfl⟩ hs
    rw [closeTake, e]
    exact ⟨_, _, if_neg (c := raiseNames s r = true) (by rw [hraise]; exact Bool.false_ne_true)⟩
  · exact ⟨_, _, putRecord_at ht (ht ▸ hd) ⟨rfl, rfl⟩ hs⟩

theorem held_of_not_passed (hp : passedOver s r = false) : r.held = r.amount ∧ r.isTake = true ∧ r.isActive = true := by
  have h : (r.isTake && r.isActive) = true := by
    by_contra hc
    have := (passedOver_iff s r).mpr (.inl (by simpa using hc))
    rw [hp] at this
    cases this
  obtain ⟨h1, h2⟩ := (Bool.and_eq_true _ _).mp h
  exact ⟨by simp [Record.held, h1, h2], h1, h2⟩

theorem trimPlan_zero (passed : Record → Bool) (rs : List Record) : trimPlan passed 0 rs = rs := by
  induction rs with
  | nil => rfl
  | cons r rs ih => simp [trimPlan, ih]

/-- Trimming the records of a table from the newest on: the table is the one their plan gives, held does not go below the
demand, and stays above it only where every record is passed over. -/
theorem foldl_trimOne (todo : List Record) : ∀ {s : State} {done : List Record}, s.engine.table = todo.reverse ++ done →
    Distinct s.engine.table → s.control.station.speaks = true →
    (∃ c f, todo.foldl trimOne s
        = amended ((trimPlan (passedOver s) (held s - s.engine.demand) todo).reverse ++ done) c f s)
      ∧ min (held s) s.engine.demand ≤ held (todo.foldl trimOne s)
      ∧ (held (todo.foldl trimOne s) ≤ s.engine.demand
        ∨ ∀ y ∈ trimPlan (passedOver s) (held s - s.engine.demand) todo, passedOver s y = true) := by
  induction todo with
  | nil =>
    intro s done ht _ _
    refine ⟨⟨false, false, ?_⟩, min_le_left _ _, .inr nofun⟩
    rw [trimPlan, ← ht]
    rfl
  | cons r todo ih =>
    intro s done ht hd hs
    rw [List.reverse_cons, List.append_assoc, List.singleton_append] at ht
    by_cases hheld : held s ≤ s.engine.demand
    · have hz : held s - s.engine.demand = 0 := Nat.sub_eq_zero_of_le hheld
      rw [foldl_trimOne_of_met _ hheld, hz, trimPlan_zero]
      refine ⟨⟨false, false, ?_⟩, min_le_left _ _, .inl hheld⟩
      rw [List.reverse_cons, List.append_assoc, List.singleton_append, ← ht]
      rfl
    · have hlt : s.engine.demand < held s := Nat.lt_of_not_le hheld
      rw [List.foldl_cons]
      cases hp : passedOver s r with
      | true =>
        obtain ⟨⟨c, f, e⟩, hmin, hleft⟩ := ih ht hd hs
        have hplan : trimPlan (passedOver s) (held s - s.engine.demand) (r :: todo)
            = r :: trimPlan (passedOver s) (held s - s.engine.demand) todo := by simp [trimPlan, hp]
        rw [trimOne_of_passed hp, hplan]
        refine ⟨⟨c, f, ?_⟩, hmin, hleft.imp_right fun h y hy => ?_⟩
        · rw [e, List.reverse_cons, List.append_assoc, List.singleton_append]
        · rcases List.mem_cons.mp hy with rfl | hy
          · exact hp
          · exact h y hy
      | false =>
        obtain ⟨hamount, htake, hactive⟩ := held_of_not_passed hp
        have hsum := held_at ht
        obtain ⟨c, f, e⟩ := trimOne_at ht hd hs hlt hp
        have hne : ¬ (held s - s.engine.demand = 0 ∨ passedOver s r = true) := by
          rw [hp]
          simp only [Bool.false_eq_true, or_false]
          omega
        rw [trimPlan, if_neg hne, e]
        by_cases hle : r.amount ≤ held s - s.engine.demand
        · rw [if_pos hle, if_pos hle]
          generalize hn : ({ r with state := .closing, owed := some .release } : Record) = n
          have hn0 : n.held = 0 := by rw [← hn]; simp [Record.held, Record.isActive]
          have hsum' := held_at (s := amended (todo.reverse ++ n :: done) c f s) rfl
          have hpass : passedOver s n = true := by
            rw [passedOver_iff, ← hn]
            exact .inl (by simp [Record.isActive])
          obtain ⟨⟨c', f', e'⟩, hmin, hleft⟩ := ih (s := amended (todo.reverse ++ n :: done) c f s) rfl
            ((ht ▸ hd : Distinct (todo.reverse ++ r :: done)).replace (n := n) (by rw [← hn]; exact ⟨rfl, rfl⟩)) hs
          have hexcess : held (amended (todo.reverse ++ n :: done) c f s) - s.engine.demand
              = held s - s.engine.demand - r.amount := by omega
          have hdemand : (amended (todo.reverse ++ n :: done) c f s).engine.demand = s.engine.demand := rfl
          have hover : passedOver (amended (todo.reverse ++ n :: done) c f s) = passedOver s := rfl
          rw [hdemand, hexcess, hover] at e' hleft
          refine ⟨⟨c' || c, f' || f, ?_⟩, ?_, hleft.imp_right fun h y hy => ?_⟩
          · rw [e', amended_amended, List.reverse_cons, List.append_assoc, List.singleton_append]
          · rw [hdemand] at hmin
            omega
          · rcases List.mem_cons.mp hy with rfl | hy
            · exact hpass
            · exact h y hy
        · rw [if_neg hle, if_neg hle]
          generalize hn : ({ r with
            amount := r.amount - (held s - s.engine.demand), revision := r.revision + 1, owed := some .trim } : Record) = n
          have hn0 : n.held = r.amount - (held s - s.engine.demand) := by
            rw [← hn]
            simp only [Record.held, Record.isTake, Record.isActive] at htake hactive ⊢
            simp only [htake, hactive, Bool.and_self, if_true]
          have hsum' := held_at (s := amended (todo.reverse ++ n :: done) c f s) rfl
          have hmet : held (amended (todo.reverse ++ n :: done) c f s) = s.engine.demand := by omega
          rw [foldl_trimOne_of_met _ (le_of_eq hmet)]
          refine ⟨⟨c, f, ?_⟩, ?_, .inl (le_of_eq hmet)⟩
          · rw [List.reverse_cons, List.append_assoc, List.singleton_append]
          · rw [hmet]
            exact min_le_right _ _

end Trim

/-! ### What is decided -/

section Decided

variable {p m : State}

theorem wasActive_eq (p : State) : wasActive p = fun r => p.engine.table.any fun q =>
    decide (q.supplier = r.supplier ∧ q.id = r.id ∧ q.side = .supply ∧ q.state = .active) := by
  funext r
  simp only [wasActive, Record.hasKey, Record.isSupply, Record.isActive, Bool.decide_and, beq_eq_decide, Bool.and_assoc]

theorem decidedTable_supplier (p : State) (hr : m.engine.role = .supplier) : decidedTable p m
    = m.engine.table.map (plannedRecord m (recallPlan (cfg m).minGrant (uncovered m) (planOrder p m))) := by
  have hact : (fun r : Record => decide (r.side = .supply ∧ r.state = .active)) = fun r => r.isSupply && r.isActive := by
    funext r
    simp only [Record.isSupply, Record.isActive, Bool.decide_and]
  have hplan : planOrder p m = (m.engine.table.filter fun r => r.isSupply && r.isActive).reverse.filter
        (fun r => !wasActive p r)
      ++ (m.engine.table.filter fun r => r.isSupply && r.isActive).reverse.filter (wasActive p) := by
    simp only [planOrder, List.filter_reverse]
  rw [hplan, wasActive_eq]
  simp only [decidedTable, hr, hact]
  rfl

theorem decidedTable_taker (p : State) (hr : m.engine.role = .taker) : decidedTable p m
    = (trimPlan (passedOver m) (held m - m.engine.demand) m.engine.table.reverse).reverse := by
  simp only [decidedTable, hr]
  rfl

/-- The recall of every ACTIVE supplier-side record, told as one update of the table. -/
theorem recallAll_amended (hd : Distinct m.engine.table) : ∃ c f, recallAll m
    = amended (m.engine.table.map fun r => if decide (r.side = .supply ∧ r.state = .active) = true then recallTo m 0 r else r)
      c f m := by
  rw [recallAll_eq hd, withSuppliesRecalled, withRecords]
  by_cases hany : m.engine.table.any (fun r => decide (r.side = .supply ∧ r.state = .active)) = true
  · rw [if_pos hany]
    exact ⟨false, true, rfl⟩
  · rw [if_neg hany]
    have hid : (m.engine.table.map fun r =>
        if decide (r.side = .supply ∧ r.state = .active) = true then recallTo m 0 r else r) = m.engine.table := by
      refine (List.map_congr_left fun q hq => if_neg fun h => ?_).trans (List.map_id _)
      exact hany (List.any_eq_true.mpr ⟨q, hq, h⟩)
    rw [hid]
    exact ⟨false, false, rfl⟩

/-- The recalls and trims leave the decided table and, but for the marks of its changes, nothing else. -/
theorem trimExcess_planRecalls (p : State) (hd : Distinct m.engine.table) (hs : m.control.station.speaks = true) :
    ∃ c f, trimExcess (planRecalls p m) = amended (decidedTable p m) c f m := by
  have hstay (h : m.engine.role ≠ .taker) {c f : Bool} {l : List Record} (e : planRecalls p m = amended l c f m) :
      trimExcess (planRecalls p m) = amended l c f m := by
    rw [e]
    exact trimExcess_of_drain h
  cases hr : m.engine.role with
  | supplier =>
    obtain ⟨⟨c, f, e⟩, -⟩ := foldl_planOne (distinct_planOrder p hd)
      (fun r h => ⟨(mem_planOrder h).2, isActive_of_mem_planOrder h⟩) hd hs fun r h => (mem_planOrder h).1
    refine ⟨c, f, hstay (by rw [hr]; nofun) ?_⟩
    rw [planRecalls, hr, decidedTable_supplier p hr]
    exact e
  | drainingSupply x u =>
    obtain ⟨c, f, e⟩ := recallAll_amended hd
    refine ⟨c, f, hstay (by rw [hr]; nofun) ?_⟩
    rw [planRecalls, decidedTable, hr]
    exact e
  | taker =>
    obtain ⟨⟨c, f, e⟩, -⟩ := foldl_trimOne m.engine.table.reverse (s := m) (done := [])
      (by rw [List.reverse_reverse, List.append_nil]) hd hs
    refine ⟨c, f, ?_⟩
    have hplan : planRecalls p m = m := by rw [planRecalls, hr]
    rw [hplan, trimExcess, if_pos hr, e, decidedTable_taker p hr, List.append_nil]
  | _ =>
    refine ⟨false, false, hstay (by rw [hr]; nofun) ?_⟩
    rw [planRecalls, decidedTable, hr]
    rfl

end Decided

end Sys2Proof.Machine
end

section
/-! SUPPORT. The table and the normal queue that the end of a happening leaves, once its notices are placed. -/

namespace Sys2Proof.Machine

/-! ### Notices placed -/

/-- A record of a table with notices placed is one that stood there, but for its slot. -/
theorem mem_placedTable {n : Nat} {l : List Record} {y : Record} (h : y ∈ placedTable n l) :
    ∃ r ∈ l, y = r ∨ y = { r with owed := none } := by
  induction l generalizing n with
  | nil => simp [placedTable] at h
  | cons r l ih =>
    have later {k : Nat} (h : y ∈ placedTable k l) : ∃ q ∈ r :: l, y = q ∨ y = { q with owed := none } := by
      obtain ⟨q, hq, hy⟩ := ih h
      exact ⟨q, List.mem_cons_of_mem r hq, hy⟩
    cases n with
    | zero => exact ⟨y, by rwa [placedTable_zero] at h, .inl rfl⟩
    | succ n =>
      rw [placedTable] at h
      split at h
      · rcases List.mem_cons.mp h with rfl | h
        · exact ⟨y, List.mem_cons_self, .inl rfl⟩
        · exact later h
      · split at h
        · exact later h
        · rcases List.mem_cons.mp h with rfl | h
          · exact ⟨r, List.mem_cons_self, .inr rfl⟩
          · exact later h

/-- A sum to which a CLOSING record adds nothing, and a slot neither, stands when notices are placed. -/
theorem sum_placedTable (g : Record → Nat) (hclosing : ∀ r, r.state = .closing → g r = 0)
    (howed : ∀ r : Record, g { r with owed := none } = g r) (n : Nat) (l : List Record) :
    ((placedTable n l).map g).sum = (l.map g).sum := by
  induction l generalizing n with
  | nil => cases n <;> rfl
  | cons r l ih =>
    cases n with
    | zero => rw [placedTable_zero]
    | succ n =>
      rw [placedTable, List.map_cons, List.sum_cons]
      split
      · rw [List.map_cons, List.sum_cons, ih]
      · split
        · rename_i hc
          rw [ih, hclosing r hc, Nat.zero_add]
        · rw [List.map_cons, List.sum_cons, ih, howed]

/-! ### A DECLARE in the queue -/

theorem length_takePlace (final : Bool) (l : List OutFrame) : (takePlace final l).length = l.length := by
  induction l with
  | nil => rfl
  | cons f l ih =>
    rw [takePlace]
    split
    · rfl
    · rw [List.length_cons, List.length_cons, ih]

/-- The place of a DECLARE changes nothing else. -/
theorem filter_takePlace (final : Bool) (l : List OutFrame) :
    (takePlace final l).filter (fun f => !f.isDeclare) = l.filter fun f => !f.isDeclare := by
  induction l with
  | nil => rfl
  | cons f l ih =>
    rw [takePlace]
    split
    · rename_i hf
      rw [List.filter_cons_of_neg (by simp [OutFrame.isDeclare]), List.filter_cons_of_neg (by simp [hf])]
    · rename_i hf
      rw [List.filter_cons_of_pos (by simpa using hf), List.filter_cons_of_pos (by simpa using hf), ih]

theorem takePlace_append {l : List OutFrame} (final : Bool) (more : List OutFrame) (h : l.any OutFrame.isDeclare = true) :
    takePlace final (l ++ more) = takePlace final l ++ more := by
  obtain ⟨before, d, after, rfl, hd, hb⟩ := exists_first_declare h
  rw [List.append_assoc, List.cons_append, takePlace_at final hb hd, takePlace_at final hb hd, List.append_assoc,
    List.cons_append]

theorem isDeclare_noticeOf (r : Record) : (noticeOf r).isDeclare = false := rfl

/-! ### The stages of the end of a happening -/

section Stages

variable {p m : State}

theorem beforeNotices_decided (hd : Distinct m.engine.table) (hs : m.control.station.speaks = true) :
    (beforeNotices p m).engine.table = decidedTable p m := by
  obtain ⟨_, _, e⟩ := trimExcess_planRecalls p hd hs
  rw [beforeNotices_table, e]
  rfl

/-- Before its notices are placed the queue holds what it held, with a due DECLARE in it where it was full. -/
theorem beforeNotices_queue (hd : Distinct m.engine.table) (hs : m.control.station.speaks = true) :
    (beforeNotices p m).link.normal.filter (fun f => !f.isDeclare) = m.link.normal.filter (fun f => !f.isDeclare)
      ∧ (p.link.normal.length < normalPlaces → (beforeNotices p m).link.normal = m.link.normal) := by
  obtain ⟨c, f, e⟩ := trimExcess_planRecalls p hd hs
  have hlink : (trimExcess (planRecalls p m)).link = m.link := by rw [e]; rfl
  unfold beforeNotices
  split
  · exact ⟨by rw [hlink], fun _ => by rw [hlink]⟩
  · rename_i hp
    refine ⟨?_, fun h => absurd h hp⟩
    obtain ⟨_, _, l, e', hl⟩ := builderTurn_eq p (trimExcess (planRecalls p m))
    rw [e', ← hlink]
    rcases hl with rfl | ⟨-, rfl⟩ | ⟨-, -, rfl⟩
    · rfl
    · exact filter_takePlace ..
    · rw [List.filter_append]
      exact List.append_nil _

/-- The builder's turn over a queue with notices behind: they stand where they stood, with a DECLARE behind them at most. -/
theorem builderTurn_behind {s : State} {queue notices : List OutFrame} (hq : s.link.normal = queue ++ notices)
    (hn : notices.any OutFrame.isDeclare = false) : ∃ ahead behind,
      (builderTurn p s).link.normal = ahead ++ notices ++ behind ∧ ahead.length = queue.length
        ∧ ahead.filter (fun f => !f.isDeclare) = queue.filter (fun f => !f.isDeclare)
        ∧ ∀ f ∈ behind, f.isDeclare = true := by
  obtain ⟨_, _, l, e, hl⟩ := builderTurn_eq p s
  rw [e]
  rcases hl with rfl | ⟨hany, rfl⟩ | ⟨-, -, rfl⟩
  · exact ⟨queue, [], by simp [hq], rfl, rfl, nofun⟩
  · rw [hq, List.any_append, hn, Bool.or_false] at hany
    refine ⟨takePlace s.engine.finalDue queue, [], ?_, length_takePlace .., filter_takePlace .., nofun⟩
    rw [hq, List.append_nil]
    exact takePlace_append _ _ hany
  · refine ⟨queue, [⟨0, .declare s.engine.finalDue, 0⟩], by simp [hq], rfl, rfl, fun f hf => ?_⟩
    rw [List.mem_singleton.mp hf]
    rfl

/-- The table at the end of a happening. -/
theorem settle_placed {b : Bool} (hd : Distinct m.engine.table) (hs : m.control.station.speaks = true) :
    (settle b p m).engine.table
      = placedTable (placedCount (owingOf (decidedTable p m)).length (beforeNotices p m)) (decidedTable p m) := by
  obtain ⟨c, f, e⟩ := placeNotices_eq (distinct_beforeNotices p hd)
  rw [settle_table hs, e, beforeNotices_decided hd hs]
  rfl

/-- The normal queue at the end of a happening: the notices behind what the queue held, and behind them no more than a DECLARE
and ASKs. -/
theorem settle_queue {b : Bool} (hd : Distinct m.engine.table) (hs : m.control.station.speaks = true) {k : Nat}
    (hk : placedCount (owingOf (decidedTable p m)).length (beforeNotices p m) = k) : ∃ ahead behind,
      (settle b p m).link.normal = ahead ++ ((owingOf (decidedTable p m)).take k).map noticeOf ++ behind
        ∧ ahead.length = (beforeNotices p m).link.normal.length
        ∧ ahead.filter (fun f => !f.isDeclare) = (beforeNotices p m).link.normal.filter (fun f => !f.isDeclare)
        ∧ ∀ f ∈ behind, f.isDeclare = true ∨ f.IsAsk := by
  obtain ⟨c, f, e⟩ := placeNotices_eq (distinct_beforeNotices p hd)
  rw [beforeNotices_decided hd hs, hk] at e
  have hnotices : (((owingOf (decidedTable p m)).take k).map noticeOf).any OutFrame.isDeclare = false := by
    rw [List.any_map]
    exact List.any_eq_false.mpr fun r _ => by simp [isDeclare_noticeOf]
  have hlink : (checkDrain (placeNotices (beforeNotices p m))).link.normal
      = (beforeNotices p m).link.normal ++ ((owingOf (decidedTable p m)).take k).map noticeOf := by
    rw [checkDrain_link, e]
    rfl
  obtain ⟨ahead, behind, hturn, hlen, hfilter, hbehind⟩ := builderTurn_behind (p := p) hlink hnotices
  obtain ⟨more, hmore, hasks⟩ := asksBehind_engineSettle (p := p) hs
  refine ⟨ahead, behind ++ more, ?_, hlen, hfilter, fun g hg => ?_⟩
  · rw [settle_link (not_loading_of_speaks hs), hmore, beforeAsks, hturn, List.append_assoc]
  · exact (List.mem_append.mp hg).imp (hbehind g) (hasks g)

end Stages

end Sys2Proof.Machine
end

section
/-! SUPPORT. Asks whose hold has ended, queued again. -/

namespace Sys2Proof.Machine

/-! ### An ask but for its state -/

/-- An ask without its state. -/
def Ask.core (a : Ask) : Ask := { a with state := .queued 0 }

/-- An ask waits for a place. -/
def Ask.isWaiting (a : Ask) : Bool :=
  match a.state with
  | .waiting _ => true
  | _ => false

theorem Ask.isWaiting_iff (a : Ask) : a.isWaiting = true ↔ ∃ since, a.state = .waiting since := by
  unfold Ask.isWaiting
  split <;> simp_all

/-- The ASK frame to which a queued ask refers is in the queue. -/
def Ask.SentIn (q : List OutFrame) (a : Ask) : Prop := ∃ ref, a.state = .queued ref ∧ askFrame a ref ∈ q

/-- An ask stands for one before: the same but for its state, which is as it was or, from waiting, queued with its frame. -/
def Ask.StandsFor (q : List OutFrame) (b a : Ask) : Prop :=
  a.core = b.core ∧ (a.state = b.state ∨ (b.isWaiting = true ∧ a.SentIn q))

theorem Ask.StandsFor.refl (q : List OutFrame) (a : Ask) : a.StandsFor q a := ⟨rfl, .inl rfl⟩

theorem askFrame_congr {a b : Ask} (h : a.core = b.core) (n : Nat) : askFrame a n = askFrame b n := by
  simp only [Ask.core, Ask.mk.injEq] at h
  obtain ⟨h1, h2, h3, h4, h5, -, -⟩ := h
  simp only [askFrame, h1, h2, h3, h4, h5]

theorem Ask.SentIn.congr {q r : List OutFrame} {a b : Ask} (h : a.SentIn q) (hq : ∀ f ∈ q, f ∈ r) (hc : b.core = a.core)
    (hs : b.state = a.state) : b.SentIn r := by
  obtain ⟨ref, hr, hm⟩ := h
  exact ⟨ref, hs.trans hr, askFrame_congr hc ref ▸ hq _ hm⟩

theorem Ask.SentIn.not_waiting {q : List OutFrame} {a : Ask} (h : a.SentIn q) : a.isWaiting = false := by
  obtain ⟨ref, hr, -⟩ := h
  simp only [Ask.isWaiting, hr]

theorem Ask.isWaiting_congr {a b : Ask} (h : a.state = b.state) : a.isWaiting = b.isWaiting := by
  simp only [Ask.isWaiting, h]

theorem Ask.StandsFor.trans {q r : List OutFrame} {a b c : Ask} (h : Ask.StandsFor q a b) (k : Ask.StandsFor r b c)
    (hq : ∀ f ∈ q, f ∈ r) : Ask.StandsFor r a c := by
  obtain ⟨h1, h2⟩ := h
  obtain ⟨k1, k2⟩ := k
  refine ⟨k1.trans h1, ?_⟩
  rcases h2 with h2 | ⟨hw, hsent⟩
  · rcases k2 with k2 | ⟨kw, ksent⟩
    · exact .inl (k2.trans h2)
    · exact .inr ⟨Ask.isWaiting_congr h2 ▸ kw, ksent⟩
  · rcases k2 with k2 | ⟨kw, -⟩
    · exact .inr ⟨hw, hsent.congr hq k1 k2⟩
    · rw [hsent.not_waiting] at kw
      cases kw

/-! ### The next waiting ask -/

/-- One step of the search for the ask whose hold ended earliest. -/
def earlier (best : Option (Nat × Ask)) (a : Ask) : Option (Nat × Ask) :=
  match a.state, best with
  | .waiting t, none => some (t, a)
  | .waiting t, some (u, b) => if t < u then some (t, a) else some (u, b)
  | _, _ => best

theorem nextWaiting_eq (l : List Ask) : nextWaiting l = (l.foldl earlier none).map Prod.snd := rfl

theorem earlier_of_not_waiting {a : Ask} (best : Option (Nat × Ask)) (h : a.isWaiting = false) : earlier best a = best := by
  unfold earlier
  split <;> simp_all [Ask.isWaiting]

theorem earlier_of_waiting {a : Ask} (best : Option (Nat × Ask)) (h : a.isWaiting = true) :
    (∃ t, earlier best a = some (t, a)) ∨ (best.isSome = true ∧ earlier best a = best) := by
  obtain ⟨t, ht⟩ := a.isWaiting_iff.mp h
  cases best with
  | none => exact .inl ⟨t, by simp only [earlier, ht]⟩
  | some x =>
    simp only [earlier, ht]
    split
    · exact .inl ⟨t, rfl⟩
    · exact .inr ⟨rfl, rfl⟩

theorem foldl_earlier (l : List Ask) (best : Option (Nat × Ask)) :
    (∀ x, l.foldl earlier best = some x → best = some x ∨ (x.2 ∈ l ∧ x.2.isWaiting = true))
      ∧ (l.foldl earlier best = none → best = none ∧ ∀ a ∈ l, a.isWaiting = false) := by
  induction l generalizing best with
  | nil => exact ⟨fun x h => .inl h, fun h => ⟨h, nofun⟩⟩
  | cons a l ih =>
    obtain ⟨hsome, hnone⟩ := ih (earlier best a)
    rw [List.foldl_cons]
    cases hw : a.isWaiting with
    | false =>
      rw [earlier_of_not_waiting best hw] at hsome hnone ⊢
      refine ⟨fun x h => (hsome x h).imp_right fun ⟨h1, h2⟩ => ⟨List.mem_cons_of_mem a h1, h2⟩, fun h => ?_⟩
      obtain ⟨h1, h2⟩ := hnone h
      exact ⟨h1, List.forall_mem_cons.mpr ⟨hw, h2⟩⟩
    | true =>
      rcases earlier_of_waiting best hw with ⟨t, e⟩ | ⟨hb, e⟩
      · rw [e] at hsome hnone ⊢
        refine ⟨fun x h => .inr ?_, fun h => nomatch (hnone h).1⟩
        rcases hsome x h with hx | ⟨h1, h2⟩
        · obtain rfl := Option.some.inj hx
          exact ⟨List.mem_cons_self, hw⟩
        · exact ⟨List.mem_cons_of_mem a h1, h2⟩
      · rw [e] at hsome hnone ⊢
        refine ⟨fun x h => (hsome x h).imp_right fun ⟨h1, h2⟩ => ⟨List.mem_cons_of_mem a h1, h2⟩, fun h => ?_⟩
        rw [(hnone h).1] at hb
        cases hb

theorem nextWaiting_some {l : List Ask} {a : Ask} (h : nextWaiting l = some a) : a ∈ l ∧ a.isWaiting = true := by
  rw [nextWaiting_eq, Option.map_eq_some_iff] at h
  obtain ⟨x, hx, rfl⟩ := h
  exact ((foldl_earlier l none).1 x hx).resolve_left nofun

theorem nextWaiting_none {l : List Ask} (h : nextWaiting l = none) : ∀ a ∈ l, a.isWaiting = false := by
  rw [nextWaiting_eq, Option.map_eq_none_iff] at h
  exact ((foldl_earlier l none).2 h).2

/-! ### Queueing an ask again -/

/-- The state with an ask queued again. -/
def requeued (a : Ask) (s : State) : State :=
  { s with
    engine := { s.engine with
      asks := s.engine.asks.map fun b => if b.supplier == a.supplier then { b with state := .queued s.engine.nextRef } else b
      nextRef := s.engine.nextRef + 1 }
    link := { s.link with normal := s.link.normal ++ [askFrame a s.engine.nextRef] } }

theorem requeueAsks_of_none {s : State} (n : Nat) (h : nextWaiting s.engine.asks = none) : requeueAsks n s = s := by
  cases n with
  | zero => rfl
  | succ n => rw [requeueAsks, h]

theorem requeueAsks_of_full {s : State} (n : Nat) (h : normalRoom s = false) : requeueAsks n s = s := by
  cases n with
  | zero => rfl
  | succ n =>
    rw [requeueAsks]
    split
    · rfl
    · rw [h]
      rfl

theorem requeueAsks_succ {s : State} {a : Ask} (n : Nat) (h : nextWaiting s.engine.asks = some a)
    (hr : normalRoom s = true) : requeueAsks (n + 1) s = requeueAsks n (requeued a s) := by
  rw [requeueAsks, h]
  simp only [hr, if_true, enqueue, updateAsk]
  rfl

/-- What queueing again keeps, it keeps for as many asks as it queues. -/
theorem requeueAsks_induct {P : State → Prop}
    (step : ∀ s a, a ∈ s.engine.asks → a.isWaiting = true → normalRoom s = true → P s → P (requeued a s)) (n : Nat) :
    ∀ {s : State}, P s → P (requeueAsks n s) := by
  induction n with
  | zero => exact fun h => h
  | succ n ih =>
    intro s h
    cases hw : nextWaiting s.engine.asks with
    | none => rwa [requeueAsks_of_none _ hw]
    | some a =>
      cases hr : normalRoom s with
      | false => rwa [requeueAsks_of_full _ hr]
      | true =>
        rw [requeueAsks_succ n hw hr]
        obtain ⟨h1, h2⟩ := nextWaiting_some hw
        exact ih (step s a h1 h2 hr h)

theorem requeued_core (a : Ask) (s : State) :
    (requeued a s).engine.asks.map Ask.core = s.engine.asks.map Ask.core := by
  rw [requeued, List.map_map]
  refine List.map_congr_left fun b _ => ?_
  simp only [Function.comp_apply]
  split <;> rfl

/-- Queueing asks again changes their states, and no more than the queue and the count of ASK frames besides. -/
theorem requeueAsks_eq (n : Nat) (s : State) : ∃ l k q, requeueAsks n s = { s with
      engine := { s.engine with asks := l, nextRef := k }
      link := { s.link with normal := q } }
    ∧ l.map Ask.core = s.engine.asks.map Ask.core :=
  requeueAsks_induct (P := fun t => ∃ l k q, t = { s with
      engine := { s.engine with asks := l, nextRef := k }
      link := { s.link with normal := q } } ∧ l.map Ask.core = s.engine.asks.map Ask.core)
    (by
      rintro _ a - - - ⟨l, k, q, rfl, hl⟩
      exact ⟨_, _, _, rfl, (requeued_core a _).trans hl⟩) n ⟨_, _, _, rfl, rfl⟩

/-- Queueing an ask again leaves fewer to wait. -/
theorem requeued_waiting {s : State} {a : Ask} (ha : a ∈ s.engine.asks) (hw : a.isWaiting = true) :
    (requeued a s).engine.asks.countP Ask.isWaiting < s.engine.asks.countP Ask.isWaiting := by
  have hle (l : List Ask) : (l.map fun b => if b.supplier == a.supplier then
      { b with state := .queued s.engine.nextRef } else b).countP Ask.isWaiting ≤ l.countP Ask.isWaiting := by
    rw [List.countP_map]
    refine List.countP_mono_left fun b _ hb => ?_
    simp only [Function.comp_apply] at hb
    split at hb
    · cases hb
    · exact hb
  obtain ⟨before, after, e⟩ := List.append_of_mem ha
  have h1 := hle before
  have h2 := hle after
  have hq : Ask.isWaiting { a with state := .queued s.engine.nextRef } = false := rfl
  simp only [requeued, e, List.map_append, List.map_cons, List.countP_append, List.countP_cons, hw, beq_self_eq_true,
    if_true, hq, Bool.false_eq_true, if_false]
  omega

/-- Where the asks that wait are not too many and a place is left, none waits any more. -/
theorem requeueAsks_none_waiting (n : Nat) : ∀ {s : State}, s.engine.asks.countP Ask.isWaiting ≤ n →
    normalRoom (requeueAsks n s) = true → ∀ a ∈ (requeueAsks n s).engine.asks, a.isWaiting = false := by
  induction n with
  | zero =>
    intro s h _ a ha
    have := List.countP_eq_zero.mp (Nat.le_zero.mp h) a ha
    simpa using this
  | succ n ih =>
    intro s h hr
    cases hw : nextWaiting s.engine.asks with
    | none =>
      rw [requeueAsks_of_none _ hw]
      exact nextWaiting_none hw
    | some a =>
      cases hroom : normalRoom s with
      | false =>
        rw [requeueAsks_of_full _ hroom, hroom] at hr
        cases hr
      | true =>
        obtain ⟨h1, h2⟩ := nextWaiting_some hw
        rw [requeueAsks_succ n hw hroom] at hr ⊢
        have := requeued_waiting h1 h2
        exact ih (by omega) hr

/-- Asks of two states stand for each other. -/
def AsksStand (q : List OutFrame) (l m : List Ask) : Prop :=
  (∀ b ∈ l, ∃ a ∈ m, b.StandsFor q a) ∧ ∀ a ∈ m, ∃ b ∈ l, b.StandsFor q a

theorem AsksStand.trans {q r : List OutFrame} {l m n : List Ask} (h : AsksStand q l m) (k : AsksStand r m n)
    (hq : ∀ f ∈ q, f ∈ r) : AsksStand r l n := by
  refine ⟨fun b hb => ?_, fun a ha => ?_⟩
  · obtain ⟨x, hx, hbx⟩ := h.1 b hb
    obtain ⟨a, ha, hxa⟩ := k.1 x hx
    exact ⟨a, ha, hbx.trans hxa hq⟩
  · obtain ⟨x, hx, hxa⟩ := k.2 a ha
    obtain ⟨b, hb, hbx⟩ := h.2 x hx
    exact ⟨b, hb, hbx.trans hxa hq⟩

theorem AsksStand.refl (q : List OutFrame) (l : List Ask) : AsksStand q l l :=
  ⟨fun b hb => ⟨b, hb, .refl q b⟩, fun a ha => ⟨a, ha, .refl q a⟩⟩

/-- With one ask to a supplier, queueing an ask again queues its frame. -/
theorem asksStand_requeued {s : State} {a : Ask} (hd : DistinctAsks s.engine.asks) (ha : a ∈ s.engine.asks)
    (hw : a.isWaiting = true) :
    AsksStand (requeued a s).link.normal s.engine.asks (requeued a s).engine.asks := by
  have hone (b : Ask) (hb : b ∈ s.engine.asks) : b.StandsFor (requeued a s).link.normal
      (if b.supplier == a.supplier then { b with state := .queued s.engine.nextRef } else b) := by
    split
    · rename_i he
      obtain rfl := hd.unique hb ha (beq_iff_eq.mp he)
      exact ⟨rfl, .inr ⟨hw, _, rfl, List.mem_append_right _ (List.mem_singleton.mpr rfl)⟩⟩
    · exact .refl _ b
  refine ⟨fun b hb => ⟨_, List.mem_map.mpr ⟨b, hb, rfl⟩, hone b hb⟩, fun x hx => ?_⟩
  obtain ⟨b, hb, rfl⟩ := List.mem_map.mp hx
  exact ⟨b, hb, hone b hb⟩

theorem distinctAsks_of_core {l m : List Ask} (h : m.map Ask.core = l.map Ask.core) (hd : DistinctAsks l) : DistinctAsks m := by
  have hs (l : List Ask) : DistinctAsks l ↔ DistinctAsks (l.map Ask.core) := 
    (List.pairwise_map (f := Ask.core) (R := fun a b : Ask => a.supplier ≠ b.supplier)).symm
  rw [hs, h, ← hs]
  exact hd

theorem asksStand_requeueAsks (n : Nat) {s : State} (hd : DistinctAsks s.engine.asks) :
    AsksStand (requeueAsks n s).link.normal s.engine.asks (requeueAsks n s).engine.asks := by
  have h := requeueAsks_induct (P := fun t => DistinctAsks t.engine.asks
      ∧ AsksStand t.link.normal s.engine.asks t.engine.asks)
    (fun t a ha hw _ ⟨ht, hstand⟩ => ⟨distinctAsks_of_core (requeued_core a t) ht,
      hstand.trans (asksStand_requeued ht ha hw) fun f hf => List.mem_append_left _ hf⟩) n ⟨hd, .refl _ _⟩
  exact h.2

end Sys2Proof.Machine
end

section
/-! SUPPORT. Asks started at the end of a happening, and the end of a happening covers what it can. -/

namespace Sys2Proof.Machine

/-! ### Asks started -/

section Starts

variable {s : State} {p : Peer}

theorem startAsks_of_not_may (n : Nat) (h : mayAsk s = false) : startAsks n s = s := by
  cases n with
  | zero => rfl
  | succ n => simp [startAsks, h]

theorem startAsks_of_none (n : Nat) (h : bestCandidate s = none) : startAsks n s = s := by
  cases n with
  | zero => rfl
  | succ n => simp [startAsks, h]

theorem startAsks_succ (n : Nat) (hm : mayAsk s = true) (hb : bestCandidate s = some p) :
    startAsks (n + 1) s = startAsks n (startAsk p s) := by simp [startAsks, hm, hb]

/-- What each new ask keeps, starting asks keeps. -/
theorem startAsks_induct {P : State → Prop}
    (step : ∀ s p, mayAsk s = true → bestCandidate s = some p → P s → P (startAsk p s)) (n : Nat) :
    ∀ {s : State}, P s → P (startAsks n s) := by
  induction n with
  | zero => exact fun h => h
  | succ n ih =>
    intro s h
    cases hm : mayAsk s with
    | false => rwa [startAsks_of_not_may _ hm]
    | true =>
      cases hb : bestCandidate s with
      | none => rwa [startAsks_of_none _ hb]
      | some p =>
        rw [startAsks_succ n hm hb]
        exact ih (step s p hm hb h)

/-- Asks started stand behind those found, their frames behind the queue. -/
theorem startAsks_eq (n : Nat) (s : State) : ∃ l r k q, startAsks n s = { s with
      engine := { s.engine with asks := s.engine.asks ++ l, nextRequest := r, nextRef := k }
      link := { s.link with normal := q } }
    ∧ ∀ a ∈ l, a.isWaiting = false :=
  startAsks_induct (P := fun t => ∃ l r k q, t = { s with
      engine := { s.engine with asks := s.engine.asks ++ l, nextRequest := r, nextRef := k }
      link := { s.link with normal := q } } ∧ ∀ a ∈ l, a.isWaiting = false)
    (by
      rintro _ p hm - ⟨l, r, k, q, rfl, hl⟩
      obtain ⟨_, e⟩ := startAsk_eq p hm
      rw [e]
      refine ⟨l ++ [newAsk p _], _, _, _, by rw [← List.append_assoc], fun a ha => ?_⟩
      rcases List.mem_append.mp ha with ha | ha
      · exact hl a ha
      · rw [List.mem_singleton.mp ha]
        rfl) n ⟨[], _, _, _, by rw [List.append_nil], nofun⟩

/-- Where more may be asked for no candidate is left, once as many asks are started as there are places. -/
theorem startAsks_exhausts (n : Nat) : ∀ {s : State}, askPlaces ≤ n + s.engine.asks.length →
    mayAsk (startAsks n s) = true → bestCandidate (startAsks n s) = none := by
  induction n with
  | zero =>
    intro s h hm
    obtain ⟨-, -, -, -, -, hlen, -⟩ := (mayAsk_iff _).mp hm
    simp only [startAsks] at hlen
    omega
  | succ n ih =>
    intro s h hm
    cases hms : mayAsk s with
    | false =>
      rw [startAsks_of_not_may _ hms, hms] at hm
      cases hm
    | true =>
      cases hb : bestCandidate s with
      | none => rwa [startAsks_of_none _ hb]
      | some p =>
        rw [startAsks_succ n hms hb] at hm ⊢
        refine ih ?_ hm
        obtain ⟨_, e⟩ := startAsk_eq p hms
        rw [e, List.length_append]
        simp only [List.length_singleton]
        omega

theorem foldl_best_isSome (l : List Peer) (b : Peer) : ∃ c, l.foldl (fun best q => match best with
    | none => some q
    | some b => if b.spare < q.spare then some q else some b) (some b) = some c := by
  induction l generalizing b with
  | nil => exact ⟨b, rfl⟩
  | cons q l ih =>
    rw [List.foldl_cons]
    dsimp only
    split
    · exact ih q
    · exact ih b

/-- Without a best candidate there is none. -/
theorem isCandidate_of_bestCandidate_none (h : bestCandidate s = none) : ∀ x ∈ s.peers, isCandidate s x = false := by
  have hnil : s.peers.filter (isCandidate s) = [] := by
    cases hl : s.peers.filter (isCandidate s) with
    | nil => rfl
    | cons b l =>
      obtain ⟨c, hc⟩ := foldl_best_isSome l b
      rw [bestCandidate, hl, List.foldl_cons] at h
      exact absurd (h.symm.trans hc) nofun
  exact fun x hx => by simpa using List.filter_eq_nil_iff.mp hnil x hx

end Starts

/-! ### The asks before any is queued -/

section Before

variable {p m : State}

theorem planRecalls_asks (p s : State) : (planRecalls p s).engine.asks = s.engine.asks := by
  have fold (g : State → Record → State) (hg : ∀ t r, (g t r).engine.asks = t.engine.asks) (rs : List Record) (t : State) :
      (rs.foldl g t).engine.asks = t.engine.asks := by
    induction rs generalizing t with
    | nil => rfl
    | cons r rs ih => rw [List.foldl_cons, ih, hg]
  unfold planRecalls
  split
  · refine fold _ (fun t r => ?_) _ s
    unfold planOne
    split
    · rfl
    · exact putRecord_asks _ t
  · exact fold _ (fun t r => putRecord_asks _ t) _ s
  · rfl

theorem trimOne_asks (s : State) (r : Record) : (trimOne s r).engine.asks = s.engine.asks := by
  unfold trimOne
  split
  · rfl
  · rename_i hn
    simp only [not_or] at hn
    obtain ⟨-, -, hraise⟩ := hn
    dsimp only
    split
    · have hkeep : ¬ raiseNames (putRecord { r with state := .closing, owed := some .release } s) r = true := by
        rwa [raiseNames, putRecord_asks]
      rw [closeTake, removeRaise, if_neg]
      · exact putRecord_asks _ s
      · exact hkeep
    · exact putRecord_asks _ s

theorem trimExcess_asks (s : State) : (trimExcess s).engine.asks = s.engine.asks := by
  have fold (rs : List Record) (t : State) : (rs.foldl trimOne t).engine.asks = t.engine.asks := by
    induction rs generalizing t with
    | nil => rfl
    | cons r rs ih => rw [List.foldl_cons, ih, trimOne_asks]
  unfold trimExcess
  split
  · exact fold _ s
  · rfl

end Before

end Sys2Proof.Machine
end

section
/-! SUPPORT. The end of a happening covers what it can. -/

namespace Sys2Proof.Machine

section Before

variable {p m : State} {b : Bool}

theorem placeNotices_asks (s : State) : (placeNotices s).engine.asks = s.engine.asks := by
  have one (s : State) (r : Record) : (placeNotice s r).engine.asks = s.engine.asks := by
    unfold placeNotice
    split
    · rfl
    · rename_i k _
      split
      · dsimp only
        split
        · obtain ⟨_, _, e⟩ := dropRecords_eq (Record.hasKey r.supplier r.id) (enqueue (noticeFrame r k) s)
          rw [dropRecord, e, enqueue_engine]
        · rw [putRecord_asks, enqueue_engine]
      · rfl
  have fold (rs : List Record) (t : State) : (rs.foldl placeNotice t).engine.asks = t.engine.asks := by
    induction rs generalizing t with
    | nil => rfl
    | cons r rs ih => rw [List.foldl_cons, ih, one]
  exact fold _ s

theorem builderTurn_asks (p s : State) : (builderTurn p s).engine.asks = s.engine.asks
    ∧ (builderTurn p s).engine.nextRequest = s.engine.nextRequest := by
  obtain ⟨_, _, _, e, -⟩ := builderTurn_eq p s
  rw [e]
  exact ⟨rfl, rfl⟩

theorem checkDrain_asks (s : State) : (checkDrain s).engine.asks = s.engine.asks
    ∧ (checkDrain s).engine.nextRequest = s.engine.nextRequest := by
  rcases checkDrain_eq s with e | ⟨_, _, _, _, e, -⟩ <;> rw [e] <;> exact ⟨rfl, rfl⟩

theorem beforeNotices_asks (p m : State) : (beforeNotices p m).engine.asks = m.engine.asks
    ∧ (beforeNotices p m).engine.nextRequest = m.engine.nextRequest := by
  have hasks : (trimExcess (planRecalls p m)).engine.asks = m.engine.asks := by
    rw [trimExcess_asks, planRecalls_asks]
  have hreq : (trimExcess (planRecalls p m)).engine.nextRequest = m.engine.nextRequest :=
    (((Bargains.refl (b := true) (c := True) m).planRecalls p).trimExcess).nextRequest
  unfold beforeNotices
  split
  · exact ⟨hasks, hreq⟩
  · obtain ⟨h1, h2⟩ := builderTurn_asks p (trimExcess (planRecalls p m))
    exact ⟨h1.trans hasks, h2.trans hreq⟩

/-- No ask is lost or changed before the asks are queued. -/
theorem beforeAsks_asks (p m : State) : (beforeAsks p m).engine.asks = m.engine.asks
    ∧ (beforeAsks p m).engine.nextRequest = m.engine.nextRequest := by
  obtain ⟨h1, h2⟩ := beforeNotices_asks p m
  have hreq : (placeNotices (beforeNotices p m)).engine.nextRequest = (beforeNotices p m).engine.nextRequest :=
    ((Bargains.refl (b := true) (c := True) (beforeNotices p m)).placeNotices).nextRequest
  obtain ⟨c1, c2⟩ := checkDrain_asks (placeNotices (beforeNotices p m))
  obtain ⟨b1, b2⟩ := builderTurn_asks p (checkDrain (placeNotices (beforeNotices p m)))
  exact ⟨by rw [beforeAsks, b1, c1, placeNotices_asks, h1], by rw [beforeAsks, b2, c2, hreq, h2]⟩

/-- The asks at the end of a happening of a speaking station: those it found, perhaps queued again, and those it adds. -/
theorem settle_asks (hs : m.control.station.speaks = true) : ∃ l l',
    (settle b p m).engine.asks = l ++ l' ∧ l = (requeueAsks askPlaces (beforeAsks p m)).engine.asks
      ∧ l.map Ask.core = m.engine.asks.map Ask.core ∧ ∀ a ∈ l', a.isWaiting = false := by
  obtain ⟨l', _, _, _, e, hl'⟩ := startAsks_eq askPlaces (requeueAsks askPlaces (beforeAsks p m))
  obtain ⟨l, _, _, e', hl⟩ := requeueAsks_eq askPlaces (beforeAsks p m)
  refine ⟨_, l', ?_, rfl, ?_, hl'⟩
  · rw [settle_engine (not_loading_of_speaks hs), engineSettle_asks hs, e]
  · rw [e', ← (beforeAsks_asks p m).1]
    exact hl

end Before

/-! ### Sums at the end of a happening -/

section Sums

variable {p m : State} {b : Bool}

theorem settle_capacity : effectiveCapacity (settle b p m) = effectiveCapacity m
    ∧ (settle b p m).engine.demand = m.engine.demand := by
  have h := outside_settle b p m
  have h1 : (settle b p m).engine.supply = m.engine.supply := congrArg (fun s => s.engine.supply) h
  have h2 : (settle b p m).engine.capacity = m.engine.capacity := congrArg (fun s => s.engine.capacity) h
  exact ⟨by rw [effectiveCapacity, h1, h2]; rfl, congrArg (fun s => s.engine.demand) h⟩

theorem settle_held (hd : Distinct m.engine.table) (hs : m.control.station.speaks = true) :
    held (settle b p m) = ((decidedTable p m).map Record.held).sum := by
  rw [held, settle_placed hd hs]
  exact sum_placedTable Record.held (fun r h => by simp [Record.held, Record.isActive, h]) (fun _ => rfl) _ _

theorem settle_uncovered (hd : Distinct m.engine.table) (hs : m.control.station.speaks = true) (c f : Bool) :
    uncovered (settle b p m) = uncovered (amended (decidedTable p m) c f m) := by
  have h1 : committed (settle b p m) = ((decidedTable p m).map Record.committed).sum := by
    rw [committed, settle_placed hd hs]
    exact sum_placedTable Record.committed (fun r h => by simp [Record.committed, Record.isClosing, h]) (fun _ => rfl) _ _
  have h2 : ((settle b p m).engine.table.map Record.recallCover).sum
      = ((decidedTable p m).map Record.recallCover).sum := by
    rw [settle_placed hd hs]
    exact sum_placedTable Record.recallCover (fun r h => by simp [Record.recallCover, h]) (fun _ => rfl) _ _
  rw [uncovered, h1, h2, settle_capacity.1]
  rfl

/-- A record at the end of a happening stands in the decided table, but for its slot. -/
theorem mem_settle_table (hd : Distinct m.engine.table) (hs : m.control.station.speaks = true) {y : Record}
    (h : y ∈ (settle b p m).engine.table) : ∃ r ∈ decidedTable p m, y = r ∨ y = { r with owed := none } := by
  rw [settle_placed hd hs] at h
  exact mem_placedTable h

/-- Recall planning leaves no uncovered excess, or no ACTIVE supplier-side record. -/
theorem settle_covers (hd : Distinct m.engine.table) (hs : m.control.station.speaks = true)
    (hr : m.engine.role = .supplier) : uncovered (settle b p m) = 0
      ∨ ∀ r ∈ (settle b p m).engine.table, r.side = .supply → r.state ≠ .active := by
  obtain ⟨⟨c, f, e⟩, hleft⟩ := foldl_planOne (distinct_planOrder p hd)
    (fun r h => ⟨(mem_planOrder h).2, isActive_of_mem_planOrder h⟩) hd hs fun r h => (mem_planOrder h).1
  have e' : (planOrder p m).foldl planOne m = amended (decidedTable p m) c f m := by
    rw [decidedTable_supplier p hr]
    exact e
  rw [e', ← settle_uncovered (b := b) hd hs] at hleft
  refine hleft.imp_right fun h y hy hside hactive => ?_
  obtain ⟨r, hm, hyr⟩ := mem_settle_table hd hs hy
  have hsame : r.side = .supply ∧ r.state = .active := by rcases hyr with rfl | rfl <;> exact ⟨hside, hactive⟩
  have h1 : r.isSupply = true := decide_eq_true hsame.1
  have h2 : r.isActive = true := decide_eq_true hsame.2
  obtain ⟨h3, h4⟩ := h r hm h1 h2
  refine h4 ?_
  simp only [planOrder, List.mem_append, List.mem_reverse, List.mem_filter, h1, h2, Bool.and_self, h3, true_and, and_true]
  cases wasActive p r <;> simp

/-- A drain leaves no ACTIVE supplier-side record. -/
theorem settle_drains (hd : Distinct m.engine.table) (hs : m.control.station.speaks = true) {x : Target} {u : Purpose}
    (hr : m.engine.role = .drainingSupply x u) :
    ∀ r ∈ (settle b p m).engine.table, r.side = .supply → r.state ≠ .active := by
  intro y hy hside hactive
  obtain ⟨r, hm, hyr⟩ := mem_settle_table hd hs hy
  have hsame : r.side = .supply ∧ r.state = .active := by rcases hyr with rfl | rfl <;> exact ⟨hside, hactive⟩
  simp only [decidedTable, hr, List.mem_map] at hm
  obtain ⟨q, -, rfl⟩ := hm
  by_cases hq : q.side = .supply ∧ q.state = .active
  · simp [hq, recallTo] at hsame
  · simp only [hq, decide_false, Bool.false_eq_true, if_false] at hsame

/-- An ask that named a record names it at the end of the happening. -/
theorem settle_raiseNames (hs : m.control.station.speaks = true) {r q : Record} (h : raiseNames m r = true)
    (hq : q.side = r.side ∧ q.supplier = r.supplier ∧ q.id = r.id) : raiseNames (settle b p m) q = true := by
  obtain ⟨l, l', e, -, hcore, -⟩ := settle_asks (b := b) (p := p) hs
  obtain ⟨h1, h2, h3⟩ := hq
  simp only [raiseNames, Bool.and_eq_true, List.any_eq_true, Record.isTake] at h ⊢
  obtain ⟨ht, a, ha, hn⟩ := h
  have hmem : a.core ∈ l.map Ask.core := hcore ▸ List.mem_map_of_mem ha
  obtain ⟨x, hx, hxa⟩ := List.mem_map.mp hmem
  refine ⟨h1 ▸ ht, x, e ▸ List.mem_append_left _ hx, ?_⟩
  simp only [Ask.core, Ask.mk.injEq] at hxa
  obtain ⟨h4, -, h5, -⟩ := hxa
  rw [h4, h5, h2, h3]
  exact hn

/-- The trims leave held at most at the demand, not below it, or every ACTIVE taker-side record named by a raise. -/
theorem settle_trims (hd : Distinct m.engine.table) (hs : m.control.station.speaks = true)
    (hr : m.engine.role = .taker) : min (held m) m.engine.demand ≤ held (settle b p m)
      ∧ (held (settle b p m) ≤ m.engine.demand ∨ ∀ r ∈ (settle b p m).engine.table, r.side = .take → r.state = .active →
        raiseNames (settle b p m) r = true) := by
  obtain ⟨⟨c, f, e⟩, hmin, hleft⟩ := foldl_trimOne m.engine.table.reverse (s := m) (done := [])
    (by rw [List.reverse_reverse, List.append_nil]) hd hs
  have hheld : held (m.engine.table.reverse.foldl trimOne m) = held (settle b p m) := by
    rw [e, settle_held hd hs, decidedTable_taker p hr, List.append_nil]
    rfl
  rw [hheld] at hmin hleft
  refine ⟨hmin, hleft.imp_right fun h y hy hside hactive => ?_⟩
  obtain ⟨r, hm, hyr⟩ := mem_settle_table hd hs hy
  rw [decidedTable_taker p hr, List.mem_reverse] at hm
  have hpassed := h r hm
  have hsame : r.side = .take ∧ r.state = .active := by rcases hyr with rfl | rfl <;> exact ⟨hside, hactive⟩
  have hname : raiseNames m r = true := by
    refine ((passedOver_iff m r).mp hpassed).resolve_left ?_
    simp [Record.isTake, Record.isActive, hsame]
  refine settle_raiseNames hs hname ?_
  rcases hyr with rfl | rfl <;> exact ⟨rfl, rfl, rfl⟩

end Sums

end Sys2Proof.Machine
end

section
/-! SUPPORT. What every happening in JOINED and LEAVING leaves done. -/

namespace Sys2Proof.Machine

variable {p m : State} {b : Bool}

/-- While the normal queue has a place no ask waits for one. -/
theorem settle_none_waiting (hs : m.control.station.speaks = true) (hlen : m.engine.asks.length ≤ askPlaces)
    (hroom : (settle b p m).link.normal.length < normalPlaces) :
    ∀ a ∈ (settle b p m).engine.asks, a.isWaiting = false := by
  obtain ⟨l, l', e, hl, -, hnew⟩ := settle_asks (b := b) (p := p) hs
  intro a ha
  rw [e] at ha
  rcases List.mem_append.mp ha with ha | ha
  · rw [hl] at ha
    refine requeueAsks_none_waiting askPlaces (s := beforeAsks p m) ?_ ?_ a ha
    · rw [(beforeAsks_asks p m).1]
      exact le_trans List.countP_le_length hlen
    · rw [settle_link (not_loading_of_speaks hs), engineSettle_asks hs] at hroom
      exact decide_eq_true (lt_of_le_of_lt (length_le_startAsks askPlaces _) hroom)
  · exact hnew a ha

/-- Where more may be asked for at the end of a happening, no candidate is left. -/
theorem settle_no_candidate (hs : m.control.station.speaks = true) (hm : mayAsk (engineSettle p m) = true) :
    ∀ x ∈ m.peers, isCandidate (engineSettle p m) x = false := by
  rw [engineSettle_asks hs] at hm ⊢
  have hnone := startAsks_exhausts askPlaces (Nat.le_add_right ..) hm
  have hpeers : (startAsks askPlaces (requeueAsks askPlaces (beforeAsks p m))).peers = m.peers := by
    rw [← engineSettle_asks hs]
    exact congrArg (fun s => s.peers) (outside_engineSettle p m)
  rw [← hpeers]
  exact isCandidate_of_bestCandidate_none hnone

/-- A supplier that could be asked but is no candidate has no more to give, or no place is left for its record. -/
theorem not_candidate {s : State} {x : Peer} (hnot : isCandidate s x = false) (hlive : x.liveness = .active)
    (hsup : x.role = .supplier) (hspare : (cfg s).minGrant ≤ x.spare) (hfind : findAsk s x.addr = none)
    (hskip : x.skip = false) :
    match takeWith s x.addr with
    | some r => r.state ≠ .active ∨ 400 - r.amount < (cfg s).minGrant
    | none => 16 ≤ s.engine.table.length + reservedPlaces s := by
  have hno : ¬ isCandidate s x = true := by rw [hnot]; exact Bool.false_ne_true
  rw [isCandidate_iff] at hno
  cases hw : takeWith s x.addr with
  | some r =>
    by_contra hc
    simp only [not_or, not_not, Nat.not_lt] at hc
    obtain ⟨hactive, hceiling⟩ := hc
    refine hno ⟨hlive, hsup, hspare, hfind, hskip, fun q hq => ?_, fun hn => by rw [hw] at hn; cases hn⟩
    obtain rfl := Option.some.inj (hw.symm.trans hq)
    exact ⟨decide_eq_true hactive, hceiling⟩
  | none =>
    by_contra hc
    exact hno ⟨hlive, hsup, hspare, hfind, hskip, fun q hq => (by rw [hw] at hq; cases hq), fun _ => Nat.lt_of_not_le hc⟩

/-- Settles O20: the plan and the trims give the table record by record, the notices are placed behind the queue, and the asks
are requeued and started until nothing is left to queue, or no place. -/
theorem recallPlanningCovers : Obligations.RecallPlanningCovers := by
  unfold Obligations.RecallPlanningCovers
  intro shed p m hd hs t
  have hloading := not_loading_of_speaks hs
  have hengine : t.engine = (engineSettle p m).engine := settle_engine hloading
  have hlink : t.link = (engineSettle p m).link := settle_link hloading
  refine ⟨settle_covers hd hs, fun x u hr => settle_drains hd hs hr, fun hr => ?_, fun _ => ?_,
    fun hroom hlen a ha since hw => ?_, fun hj hrole hpath hsuspend hneed hlen hroom x hx hlive hsup hspare hskip hasks => ?_⟩
  · have hdemand : t.engine.demand = m.engine.demand := settle_capacity.2
    rw [hdemand]
    exact settle_trims hd hs hr
  · intro owing
    generalize hk : placedCount owing.length (beforeNotices p m) = k
    obtain ⟨ahead, behind, hq, hlen, hfilter, hbehind⟩ := settle_queue (b := shed) hd hs hk
    obtain ⟨hfilter', hfull⟩ := beforeNotices_queue (p := p) hd hs
    simp only [placedCount, normalPlaces] at hk
    refine ⟨k, ahead, behind, by omega, ?_, hq, by omega, by omega, hfilter.trans hfilter', fun h => ?_, hbehind⟩
    · rw [← hk]
      exact settle_placed hd hs
    · rw [hlen, hfull h]
  · have h := settle_none_waiting hs hlen hroom a ha
    simp [Ask.isWaiting, hw] at h
  · have hcontrol : t.control = (engineSettle p m).control := by rw [engineSettle_control]; exact settle_control shed p m
    have hcfg : cfg t = cfg (engineSettle p m) := by rw [cfg, hcontrol]; rfl
    have hheld : held t = held (engineSettle p m) := by rw [held, hengine]; rfl
    have hout : outstanding t = outstanding (engineSettle p m) := by rw [outstanding, hengine]; rfl
    have hwith : takeWith t x.addr = takeWith (engineSettle p m) x.addr := by rw [takeWith, hengine]; rfl
    have hreserved : reservedPlaces t = reservedPlaces (engineSettle p m) := by rw [reservedPlaces, hengine]; rfl
    rw [hheld, hout, hcfg, hengine] at hneed
    have hmay : mayAsk (engineSettle p m) = true := by
      refine (mayAsk_iff _).mpr ⟨hcontrol ▸ hj, hengine ▸ hrole, ?_, hengine ▸ hsuspend, ?_, hengine ▸ hlen,
        decide_eq_true (hlink ▸ hroom)⟩
      · rw [engineSettle_path]
        exact fun h => hpath ((settle_path_tripped hloading).mpr h)
      · simp only [need, unmetDemand]
        omega
    have hnot := settle_no_candidate hs hmay x (settle_peers shed p m ▸ hx)
    have hfind : findAsk (engineSettle p m) x.addr = none :=
      List.find?_eq_none.mpr fun a ha => by simpa using hasks a (hengine ▸ ha)
    rw [hwith, hcfg, hreserved, hengine]
    rw [hcfg] at hspare
    exact not_candidate hnot hlive hsup hspare hfind hskip

end Sys2Proof.Machine
end

section
/-! SUPPORT. The asks that the end of a happening adds: to the best candidate, for what it can give, with ids in turn. -/

namespace Sys2Proof.Machine

/-! ### The best candidate -/

/-- One step of the choice of the best candidate. -/
def better (best : Option Peer) (p : Peer) : Option Peer :=
  match best with
  | none => some p
  | some b => if b.spare < p.spare then some p else some b

theorem bestCandidate_eq (s : State) : bestCandidate s = (s.peers.filter (isCandidate s)).foldl better none := rfl

/-- A supplier is better than another: it declares more spare, or as much at a lower address. -/
def Peer.Better (x y : Peer) : Prop := y.spare < x.spare ∨ (y.spare = x.spare ∧ x.addr < y.addr)

theorem Peer.Better.trans {x y z : Peer} (h : x.Better y) (k : y.Better z) : x.Better z := by
  unfold Peer.Better at *
  omega

/-- Over entries in address order the choice is better than all others. -/
theorem foldl_better (l : List Peer) : ∀ {b c : Peer}, (b :: l).Pairwise (fun p q => p.addr < q.addr) →
    l.foldl better (some b) = some c → ∀ y ∈ b :: l, y = c ∨ c.Better y := by
  induction l with
  | nil =>
    intro b c _ h y hy
    obtain rfl := Option.some.inj h
    exact .inl (List.mem_singleton.mp hy)
  | cons q l ih =>
    intro b c ho h y hy
    obtain ⟨hb, hq⟩ := List.pairwise_cons.mp ho
    have hbq := hb q List.mem_cons_self
    rw [List.foldl_cons] at h
    by_cases hlt : b.spare < q.spare
    · have e : better (some b) q = some q := if_pos hlt
      rw [e] at h
      have hrest := ih hq h
      rcases List.mem_cons.mp hy with rfl | hy
      · have hqy : q.Better y := .inl hlt
        rcases hrest q List.mem_cons_self with rfl | hc
        · exact .inr hqy
        · exact .inr (hc.trans hqy)
      · exact hrest y hy
    · have e : better (some b) q = some b := if_neg hlt
      rw [e] at h
      have hrest := ih (List.pairwise_cons.mpr ⟨fun x hx => hb x (List.mem_cons_of_mem q hx), (List.pairwise_cons.mp hq).2⟩) h
      have hbetter : b.Better q := by unfold Peer.Better; omega
      rcases List.mem_cons.mp hy with rfl | hy
      · exact hrest y List.mem_cons_self
      · rcases List.mem_cons.mp hy with rfl | hy
        · rcases hrest b List.mem_cons_self with rfl | hc
          · exact .inr hbetter
          · exact .inr (hc.trans hbetter)
        · exact hrest y (List.mem_cons_of_mem b hy)

theorem bestCandidate_best {s : State} {p : Peer} (ho : PeersOrdered s) (h : bestCandidate s = some p) :
    ∀ y ∈ s.peers, isCandidate s y = true → y = p ∨ p.Better y := by
  intro y hy hc
  have hm : y ∈ s.peers.filter (isCandidate s) := List.mem_filter.mpr ⟨hy, hc⟩
  have hp : (s.peers.filter (isCandidate s)).Pairwise (fun p q => p.addr < q.addr) := ho.sublist List.filter_sublist
  rw [bestCandidate_eq] at h
  cases hl : s.peers.filter (isCandidate s) with
  | nil => rw [hl] at hm; cases hm
  | cons b l =>
    rw [hl] at h hm hp
    exact foldl_better l hp h y hm

/-! ### The grounds of an ask -/

/-- More may be asked for, within the demand and the places (R40, R42). -/
def Asking (t : State) : Prop :=
  t.control.station = .joined ∧ t.engine.role = .taker ∧ t.engine.suspendEnd = none ∧ t.path.state ≠ .tripped
    ∧ held t + outstanding t ≤ t.engine.demand ∧ t.engine.asks.length ≤ 4

/-- What a supplier's spare and the contract ceiling allow to ask for (R44). -/
def mostOf (t : State) (supplier spare : Nat) : Nat :=
  match takeWith t supplier with
  | some r => min spare (400 - r.amount)
  | none => min spare 400

/-- The ask is one that R43 and R44 give. -/
structure Chosen (t : State) (a : Ask) : Prop where
  sent : a.SentIn t.link.normal
  holds : a.holds = 0
  minimum : a.minimum = min (cfg t).minGrant a.amount
  least : min (cfg t).minGrant 400 ≤ a.amount
  raised : a.raised = (takeWith t a.supplier).map Record.id
  room : match takeWith t a.supplier with
    | some r => r.state = .active ∧ (cfg t).minGrant ≤ 400 - r.amount
    | none => t.engine.table.length + reservedPlaces t ≤ 16
  supplier : ∃ x ∈ t.peers, x.addr = a.supplier ∧ x.liveness = .active ∧ x.role = .supplier ∧ x.skip = false
    ∧ (cfg t).minGrant ≤ x.spare
    ∧ (a.amount ≤ mostOf t a.supplier x.spare
        ∧ (a.amount = mostOf t a.supplier x.spare ∨ held t + outstanding t = t.engine.demand))
    ∧ ∀ y ∈ t.peers, isCandidate t y = true → x.Better y

section Step

variable {s : State} {p : Peer} {a : Ask}

/-- What a new ask changes of the sums and the places. -/
theorem startAsk_sums (hm : mayAsk s = true) : held (startAsk p s) = held s
    ∧ outstanding (startAsk p s) = outstanding s + (newAsk p s).amount
    ∧ reservedPlaces (startAsk p s) = reservedPlaces s + (if (newAsk p s).raised.isNone then 1 else 0)
    ∧ (startAsk p s).engine.asks = s.engine.asks ++ [newAsk p s] := by
  obtain ⟨_, e⟩ := startAsk_eq p hm
  rw [e]
  refine ⟨rfl, ?_, ?_, rfl⟩
  · simp only [outstanding, List.map_append, List.sum_append, List.map_cons, List.map_nil, List.sum_cons, List.sum_nil,
      Nat.add_zero]
  · simp only [reservedPlaces, List.filter_append, List.length_append, List.filter_cons, List.filter_nil]
    split <;> rfl

/-- What a new ask leaves alone. -/
theorem startAsk_keeps (hm : mayAsk s = true) : (startAsk p s).control = s.control ∧ (startAsk p s).path = s.path
    ∧ (startAsk p s).peers = s.peers ∧ (startAsk p s).engine.table = s.engine.table
    ∧ (startAsk p s).engine.role = s.engine.role ∧ (startAsk p s).engine.suspendEnd = s.engine.suspendEnd
    ∧ (startAsk p s).engine.demand = s.engine.demand := by
  obtain ⟨_, e⟩ := startAsk_eq p hm
  rw [e]
  exact ⟨rfl, rfl, rfl, rfl, rfl, rfl, rfl⟩

theorem takeWith_startAsk (hm : mayAsk s = true) (x : Nat) : takeWith (startAsk p s) x = takeWith s x := by
  obtain ⟨-, -, -, ht, -⟩ := startAsk_keeps (p := p) hm
  rw [takeWith, ht]
  rfl

theorem cfg_startAsk (hm : mayAsk s = true) : cfg (startAsk p s) = cfg s := by
  rw [cfg, (startAsk_keeps hm).1]
  rfl

/-- No ask makes a supplier a candidate. -/
theorem isCandidate_of_startAsk (hm : mayAsk s = true) {y : Peer} (h : isCandidate (startAsk p s) y = true) :
    isCandidate s y = true ∧ y.addr ≠ p.addr := by
  obtain ⟨h1, h2, h3, h4, h5, h6, h7⟩ := (isCandidate_iff _ y).mp h
  obtain ⟨-, -, hres, hasks⟩ := startAsk_sums (p := p) hm
  obtain ⟨-, -, -, htable, -⟩ := startAsk_keeps (p := p) hm
  simp only [takeWith_startAsk hm, cfg_startAsk hm, htable, hres] at h3 h6 h7
  simp only [findAsk, hasks, List.find?_append, Option.or_eq_none_iff] at h4
  obtain ⟨h41, h42⟩ := h4
  refine ⟨(isCandidate_iff s y).mpr ⟨h1, h2, h3, h41, h5, h6, fun hn => ?_⟩, fun he => ?_⟩
  · have := h7 hn
    omega
  · have := List.find?_eq_none.mp h42 (newAsk p s) List.mem_cons_self
    exact this (by simp [newAsk, he])

theorem newAsk_le_need (p : Peer) (s : State) : (newAsk p s).amount ≤ need s :=
  le_trans (Nat.min_le_left _ _) (Nat.min_le_left _ _)

/-- After a new ask the conditions of an ask still held when it was made. -/
theorem asking_startAsk (hm : mayAsk s = true) (hg : 1 ≤ (cfg s).minGrant) : Asking (startAsk p s) := by
  obtain ⟨hj, hrole, hpath, hsuspend, hneed, hlen, -⟩ := (mayAsk_iff s).mp hm
  obtain ⟨e1, e2, -, -, e5, e6, e7⟩ := startAsk_keeps (p := p) hm
  obtain ⟨h1, h2, -, h4⟩ := startAsk_sums (p := p) hm
  have hle := newAsk_le_need p s
  refine ⟨e1 ▸ hj, e5 ▸ hrole, e6 ▸ hsuspend, e2 ▸ hpath, ?_, ?_⟩
  · rw [h1, h2, e7]
    simp only [need, unmetDemand] at hle hneed
    omega
  · rw [h4, List.length_append, List.length_singleton]
    exact hlen

theorem sentIn_startAsk (hm : mayAsk s = true) (h : a.SentIn s.link.normal) : a.SentIn (startAsk p s).link.normal := by
  obtain ⟨_, e⟩ := startAsk_eq p hm
  rw [e]
  exact h.congr (fun f hf => List.mem_append_left _ hf) rfl rfl

theorem mostOf_startAsk (hm : mayAsk s = true) (x n : Nat) : mostOf (startAsk p s) x n = mostOf s x n := by
  rw [mostOf, takeWith_startAsk hm]
  rfl

/-- A new ask takes no grounds from those before. -/
theorem chosen_startAsk (hm : mayAsk s = true) (hb : bestCandidate s = some p) (hg : 1 ≤ (cfg s).minGrant)
    (h : Chosen s a) : Chosen (startAsk p s) a := by
  obtain ⟨-, -, -, -, hneed, -, -⟩ := (mayAsk_iff s).mp hm
  obtain ⟨-, -, epeers, etable, -⟩ := startAsk_keeps (p := p) hm
  obtain ⟨-, -, hres, -⟩ := startAsk_sums (p := p) hm
  have ecfg := cfg_startAsk (p := p) hm
  refine ⟨sentIn_startAsk hm h.sent, h.holds, by rw [ecfg]; exact h.minimum, by rw [ecfg]; exact h.least,
    by rw [takeWith_startAsk hm]; exact h.raised, ?_, ?_⟩
  · have hroom := h.room
    rw [takeWith_startAsk hm, ecfg, etable, hres]
    cases hw : takeWith s a.supplier with
    | some r => rwa [hw] at hroom
    | none =>
      rw [hw] at hroom
      dsimp only at hroom ⊢
      cases hp : takeWith s p.addr with
      | some r =>
        have hraised : (newAsk p s).raised.isNone = false := by simp [newAsk, hp]
        rw [hraised]
        exact hroom
      | none =>
        obtain ⟨-, -, -, -, -, -, hplace⟩ := (isCandidate_iff s p).mp (mem_bestCandidate hb).2
        have : s.engine.table.length + reservedPlaces s < 16 := hplace hp
        split <;> omega
  · obtain ⟨x, hx, h1, h2, h3, h4, h5, ⟨h6, h7⟩, h8⟩ := h.supplier
    refine ⟨x, epeers ▸ hx, h1, h2, h3, h4, ecfg ▸ h5, ?_, fun y hy hc => ?_⟩
    · rw [mostOf_startAsk hm]
      refine ⟨h6, .inl (h7.resolve_right fun hfull => ?_)⟩
      simp only [need, unmetDemand] at hneed
      omega
    · exact h8 y (epeers ▸ hy) (isCandidate_of_startAsk hm hc).1

/-- A new ask has its grounds. -/
theorem chosen_newAsk (hm : mayAsk s = true) (hb : bestCandidate s = some p) (hg : 1 ≤ (cfg s).minGrant)
    (ho : PeersOrdered s) : Chosen (startAsk p s) (newAsk p s) := by
  obtain ⟨-, -, -, -, hneed, -, -⟩ := (mayAsk_iff s).mp hm
  obtain ⟨hp, hc⟩ := mem_bestCandidate hb
  obtain ⟨hlive, hsup, hspare, -, hskip, hsome, hnone⟩ := (isCandidate_iff s p).mp hc
  obtain ⟨-, -, epeers, etable, -, -, edemand⟩ := startAsk_keeps (p := p) hm
  obtain ⟨hheld, hout, hres, -⟩ := startAsk_sums (p := p) hm
  have ecfg := cfg_startAsk (p := p) hm
  have hsupplier : (newAsk p s).supplier = p.addr := rfl
  have hamount : (newAsk p s).amount = min (need s) (mostOf s p.addr p.spare) := by
    simp only [newAsk, mostOf, maxAmount]
    cases takeWith s p.addr <;> exact Nat.min_assoc ..
  have hmost : min (cfg s).minGrant 400 ≤ mostOf s p.addr p.spare := by
    simp only [mostOf]
    cases hw : takeWith s p.addr with
    | none => exact min_le_min_right 400 hspare
    | some r =>
      have := (hsome r hw).2
      simp only [maxAmount] at this
      exact le_trans (Nat.min_le_left _ _) (le_min hspare this)
  refine ⟨?_, rfl, by rw [ecfg]; rfl, ?_, by rw [takeWith_startAsk hm]; rfl, ?_, ?_⟩
  · obtain ⟨_, e⟩ := startAsk_eq p hm
    rw [e]
    exact ⟨s.engine.nextRef, rfl, List.mem_append_right _ List.mem_cons_self⟩
  · rw [ecfg, hamount]
    exact le_min (le_trans (Nat.min_le_left _ _) hneed) hmost
  · rw [takeWith_startAsk hm, ecfg, etable, hres, hsupplier]
    cases hw : takeWith s p.addr with
    | some r => exact ⟨of_decide_eq_true (hsome r hw).1, (hsome r hw).2⟩
    | none =>
      have hlt : s.engine.table.length + reservedPlaces s < 16 := hnone hw
      dsimp only
      split <;> omega
  · refine ⟨p, epeers ▸ hp, rfl, hlive, hsup, hskip, ecfg ▸ hspare, ?_, fun y hy hcy => ?_⟩
    · rw [mostOf_startAsk hm, hsupplier, hheld, hout, edemand, hamount]
      refine ⟨Nat.min_le_right _ _, ?_⟩
      simp only [need, unmetDemand] at hneed ⊢
      omega
    · obtain ⟨hys, hne⟩ := isCandidate_of_startAsk hm hcy
      refine (bestCandidate_best ho hb y (epeers ▸ hy) hys).resolve_left ?_
      rintro rfl
      exact hne rfl

end Step

end Sys2Proof.Machine
end

section
/-! SUPPORT. The asks at the end of a happening, and the records it leaves. -/

namespace Sys2Proof.Machine

/-! ### The asks added -/

/-- The asks of a state stand behind those given, each with its grounds. -/
def AddsChosen (l : List Ask) (t : State) : Prop :=
  ∃ l', t.engine.asks = l ++ l' ∧ (l' ≠ [] → Asking t) ∧ ∀ a ∈ l', Chosen t a

theorem addsChosen_startAsks (n : Nat) {s : State} (hg : 1 ≤ (cfg s).minGrant) (ho : PeersOrdered s) :
    AddsChosen s.engine.asks (startAsks n s) := by
  have h := startAsks_induct (P := fun t => 1 ≤ (cfg t).minGrant ∧ PeersOrdered t ∧ AddsChosen s.engine.asks t)
    (fun t p hm hb ⟨htg, hto, l', e, _, hl⟩ => by
      obtain ⟨-, -, epeers, -⟩ := startAsk_keeps (p := p) hm
      obtain ⟨-, -, -, easks⟩ := startAsk_sums (p := p) hm
      refine ⟨by rwa [cfg_startAsk hm], by rwa [PeersOrdered, epeers], l' ++ [newAsk p t], ?_,
        fun _ => asking_startAsk hm htg, fun a ha => ?_⟩
      · rw [easks, e, List.append_assoc]
      · rcases List.mem_append.mp ha with ha | ha
        · exact chosen_startAsk hm hb htg (hl a ha)
        · rw [List.mem_singleton.mp ha]
          exact chosen_newAsk hm hb htg hto) n ⟨hg, ho, [], (List.append_nil _).symm, fun h => absurd rfl h, nofun⟩
  exact h.2.2

/-- The request id i asks on from n, from 15 on to 1 (R41). -/
def turnOf (n i : Nat) : Nat := (n + i - 1) % 15 + 1

theorem turnOf_succ {n : Nat} (h : 1 ≤ n) (i : Nat) : turnOf n (i + 1) = if turnOf n i = 15 then 1 else turnOf n i + 1 := by
  unfold turnOf
  split <;> omega

/-- The request ids of the asks started count on. -/
theorem requestIds_startAsks (n : Nat) {s : State} (h1 : 1 ≤ s.engine.nextRequest) (h15 : s.engine.nextRequest ≤ 15) :
    ∃ k, (startAsks n s).engine.nextRequest = turnOf s.engine.nextRequest k
      ∧ (startAsks n s).engine.asks.map Ask.requestId
        = s.engine.asks.map Ask.requestId ++ (List.range k).map (turnOf s.engine.nextRequest) :=
  startAsks_induct (P := fun t => ∃ k, t.engine.nextRequest = turnOf s.engine.nextRequest k
      ∧ t.engine.asks.map Ask.requestId
        = s.engine.asks.map Ask.requestId ++ (List.range k).map (turnOf s.engine.nextRequest))
    (by
      rintro t p hm - ⟨k, hnext, hids⟩
      obtain ⟨_, e⟩ := startAsk_eq p hm
      rw [e]
      refine ⟨k + 1, ?_, ?_⟩
      · rw [turnOf_succ h1, ← hnext]
      · rw [List.map_append, hids, List.range_succ, List.map_append, List.append_assoc]
        show _ ++ (_ ++ [t.engine.nextRequest]) = _ ++ (_ ++ [turnOf s.engine.nextRequest k])
        rw [hnext]) n
    ⟨0, by unfold turnOf; omega, by simp⟩

/-! ### At the end of a happening -/

section Settled

variable {p m : State} {b : Bool}

theorem Chosen.congr {s t : State} {a : Ask} (hc : t.control = s.control) (he : t.engine = s.engine) (hl : t.link = s.link)
    (hp : t.peers = s.peers) (h : Chosen s a) : Chosen t a := by
  cases s
  cases t
  dsimp only at hc he hl hp
  subst hc he hl hp
  exact ⟨h.sent, h.holds, h.minimum, h.least, h.raised, h.room, h.supplier⟩

/-- What the end of a happening leaves of the asks, of a speaking station. -/
theorem settle_addsChosen (hs : m.control.station.speaks = true) (ht : TablesOrdered m) (hg : 1 ≤ (cfg m).minGrant) :
    ∃ l l', (settle b p m).engine.asks = l ++ l' ∧ AsksStand (settle b p m).link.normal m.engine.asks l
      ∧ (l' ≠ [] → Asking (settle b p m)) ∧ ∀ a ∈ l', Chosen (settle b p m) a := by
  obtain ⟨ho, -, -, -, -, -, hd, -⟩ := ht
  have hloading := not_loading_of_speaks hs
  have hbefore : outside (requeueAsks askPlaces (beforeAsks p m)) = outside m := by
    rw [outside_requeueAsks, beforeAsks, outside_builderTurn, outside_checkDrain, outside_placeNotices, beforeNotices]
    split
    · rw [outside_trimExcess, outside_planRecalls]
    · rw [outside_builderTurn, outside_trimExcess, outside_planRecalls]
  have hcontrol : (requeueAsks askPlaces (beforeAsks p m)).control = m.control := congrArg (fun s => s.control) hbefore
  have hpeers : (requeueAsks askPlaces (beforeAsks p m)).peers = m.peers := congrArg (fun s => s.peers) hbefore
  obtain ⟨l', e, hasking, hl'⟩ := addsChosen_startAsks askPlaces (s := requeueAsks askPlaces (beforeAsks p m))
    (by rw [cfg, hcontrol]; exact hg) (by rwa [PeersOrdered, hpeers])
  rw [← engineSettle_asks hs] at e hasking hl'
  have hstand := asksStand_requeueAsks askPlaces (s := beforeAsks p m) (by rwa [(beforeAsks_asks p m).1])
  rw [(beforeAsks_asks p m).1] at hstand
  have hprefix : (requeueAsks askPlaces (beforeAsks p m)).link.normal <+: (settle b p m).link.normal := by
    rw [settle_link hloading, engineSettle_asks hs]
    exact prefix_startAsks _ _
  have hc : (settle b p m).control = (engineSettle p m).control := by rw [engineSettle_control]; exact settle_control b p m
  have hpe : (settle b p m).peers = (engineSettle p m).peers :=
    (settle_peers b p m).trans (congrArg (fun s => s.peers) (outside_engineSettle p m)).symm
  have he := settle_engine (b := b) (p := p) hloading
  refine ⟨_, l', by rw [he]; exact e, hstand.trans (.refl _ _) hprefix.subset, fun hne => ?_, fun a ha =>
    (hl' a ha).congr hc he (settle_link hloading) hpe⟩
  obtain ⟨h1, h2, h3, h4, h5, h6⟩ := hasking hne
  refine ⟨hc ▸ h1, he ▸ h2, he ▸ h3, fun h => h4 ?_, ?_, he ▸ h6⟩
  · rw [engineSettle_path]
    exact (settle_path_tripped hloading).mp h
  · rw [held, outstanding, he]
    exact h5

/-- The request ids at the end of a happening. -/
theorem settle_requestIds (h1 : 1 ≤ m.engine.nextRequest) (h15 : m.engine.nextRequest ≤ 15) :
    ∃ k, (settle b p m).engine.nextRequest = turnOf m.engine.nextRequest k
      ∧ (settle b p m).engine.asks.map Ask.requestId
        = m.engine.asks.map Ask.requestId ++ (List.range k).map (turnOf m.engine.nextRequest) := by
  cases hs : m.control.station.speaks with
  | false =>
    obtain ⟨e, -⟩ := settle_still (b := b) (p := p) hs
    rw [e]
    exact ⟨0, by unfold turnOf; omega, by simp⟩
  | true =>
    obtain ⟨hasks, hnext⟩ := beforeAsks_asks p m
    obtain ⟨l, _, _, e, hcore⟩ := requeueAsks_eq askPlaces (beforeAsks p m)
    have hn : (requeueAsks askPlaces (beforeAsks p m)).engine.nextRequest = m.engine.nextRequest := by rw [e]; exact hnext
    have hids : (requeueAsks askPlaces (beforeAsks p m)).engine.asks.map Ask.requestId
        = m.engine.asks.map Ask.requestId := by
      have := congrArg (List.map Ask.requestId) hcore
      rw [List.map_map, List.map_map, hasks] at this
      rw [e]
      exact this
    obtain ⟨k, h⟩ := requestIds_startAsks askPlaces (s := requeueAsks askPlaces (beforeAsks p m))
      (by rw [hn]; exact h1) (by rw [hn]; exact h15)
    rw [hn, hids, ← engineSettle_asks hs, ← settle_engine (b := b) (not_loading_of_speaks hs)] at h
    exact ⟨k, h⟩

end Settled

/-- An ask that stands for another, told field by field. -/
theorem Ask.StandsFor.fields {q : List OutFrame} {b a : Ask} (h : b.StandsFor q a) :
    (a.supplier = b.supplier ∧ a.requestId = b.requestId ∧ a.raised = b.raised ∧ a.amount = b.amount
        ∧ a.minimum = b.minimum ∧ a.holds = b.holds)
      ∧ (a.state = b.state ∨ ((∃ since, b.state = .waiting since) ∧ a.SentIn q)) := by
  obtain ⟨hc, hs⟩ := h
  simp only [Ask.core, Ask.mk.injEq] at hc
  obtain ⟨h1, h2, h3, h4, h5, -, h6⟩ := hc
  exact ⟨⟨h1, h2, h3, h4, h5, h6⟩, hs.imp_right fun ⟨hw, hsent⟩ =>
    ⟨b.isWaiting_iff.mp hw, hsent⟩⟩

/-- Settles O18: every record is traced to one found, every ask found stands, and every ask added is chosen among the
candidates. -/
theorem endOfHappeningAddsNoRecord : Obligations.EndOfHappeningAddsNoRecord := by
  unfold Obligations.EndOfHappeningAddsNoRecord
  intro shed p m t same sends stands
  refine ⟨fun r hr => ?_, fun ht hg => ?_, fun h1 h15 => settle_requestIds h1 h15⟩
  · obtain ⟨q, hq, h1, h2, h3, h4, -⟩ := Traced.settle shed p m r hr
    exact ⟨q, hq, h1, h2, h3, h4⟩
  · cases hs : m.control.station.speaks with
    | false =>
      obtain ⟨e, -⟩ := settle_still (b := shed) (p := p) hs
      have hsame (a : Ask) : stands a a := ⟨⟨rfl, rfl, rfl, rfl, rfl, rfl⟩, .inl rfl⟩
      have hasks : t.engine.asks = m.engine.asks := congrArg Engine.asks e
      rw [hasks]
      exact ⟨fun b hb => ⟨b, hb, hsame b⟩, fun a ha => .inl ⟨a, ha, hsame a⟩⟩
    | true =>
      obtain ⟨l, l', e, ⟨hto, hfrom⟩, hasking, hchosen⟩ := settle_addsChosen (b := shed) (p := p) hs ht hg
      refine ⟨fun b hb => ?_, fun a ha => ?_⟩
      · obtain ⟨a, ha, hba⟩ := hto b hb
        exact ⟨a, e ▸ List.mem_append_left _ ha, hba.fields⟩
      · rcases List.mem_append.mp (e ▸ ha : a ∈ l ++ l') with ha | ha
        · obtain ⟨b, hb, hba⟩ := hfrom a ha
          exact .inl ⟨b, hb, hba.fields⟩
        · obtain ⟨h1, h2, h3, h4, h5, h6⟩ := hasking (List.ne_nil_of_mem ha)
          have h := hchosen a ha
          exact .inr ⟨h.sent, h.holds, settle_control shed p m ▸ h1, h2, h3, h4, h5, h.minimum, h.least, h6, h.raised,
            h.room, h.supplier⟩

end Sys2Proof.Machine
end
